-- ==== Sys2Proof/Word.lean ====
section
/-! DEFINITION. The bit-vector widths the spec names (00_scope.md R7: `u8`, `u32`, `u48`; 10_state.md R23: 7-bit register numbers). -/

namespace Sys2Proof

/-- `u8` (R7): one byte on the wire, and the CRC register. -/
abbrev Byte := BitVec 8

/-- `u32` (R7): a `RegisterValue` of the remote chip. -/
abbrev Word32 := BitVec 32

/-- A register number of the remote register space, 7 bits (20_memory.md R60). -/
abbrev Reg7 := BitVec 7

/-- `u48` (R7): one command word (30_encoding.md R80). -/
abbrev CmdWord := BitVec 48

end Sys2Proof
end

