-- ==== Sys2Proof/Syntax.lean ====
section
/-! DEFINITION. The seven commands (30_encoding.md R81), one constructor for each row of the opcode table. -/

namespace Sys2Proof

/-- A decoded command `Cmd(op, a8, d32)` of R86. `a8` is the whole byte operand `A8` (R82); that bit 7 is clear where it
holds a register number is a check of `Instr.wellFormed`. `d32` stands only where the word may carry data (R83). -/
inductive Instr where
  /-- CRC_SEED `<imm8>` (40_crc.md R123) -/
  | crcSeed (a8 : Byte)
  /-- CRC_UPDATE `<imm8>` (40_crc.md R124) -/
  | crcUpdate (a8 : Byte)
  /-- READ_REG `<reg7>` (42_read.md R181) -/
  | readReg (a8 : Byte)
  /-- READ_INT `<reg7>` (42_read.md R182) -/
  | readInt (a8 : Byte)
  /-- READ_U32 `<reg7>` (42_read.md R183) -/
  | readU32 (a8 : Byte)
  /-- WRITE_REG `<reg7>, <imm32>` (43_write.md R200) -/
  | writeReg (a8 : Byte) (d32 : Word32)
  /-- WRITE_CHECKED `<reg7>, <imm32>` (43_write.md R202) -/
  | writeChecked (a8 : Byte) (d32 : Word32)
deriving DecidableEq, Repr

end Sys2Proof
end

