-- ==== Sys2Proof/WellFormed.lean ====
section
/-! DEFINITION. Which commands a word can hold (30_encoding.md R82, R84). -/

namespace Sys2Proof

/-- R82: for the five commands that name a register, `A8[7]` must be 0; the CRC commands take any byte. -/
def Instr.wellFormed : Instr → Bool
  | .crcSeed _ => true
  | .crcUpdate _ => true
  | .readReg a8 => !a8.getLsbD 7
  | .readInt a8 => !a8.getLsbD 7
  | .readU32 a8 => !a8.getLsbD 7
  | .writeReg a8 _ => !a8.getLsbD 7
  | .writeChecked a8 _ => !a8.getLsbD 7

end Sys2Proof
end

