-- ==== Sys2Proof/Decode.lean ====
section
/-! DEFINITION. The decoder of 30_encoding.md R86, total on 48-bit words and refusing by name, and after it the
encoder, written from the layout of R80 and the opcodes of R81. -/

namespace Sys2Proof

/-- Why a word is illegal (R85, its four conditions). The spec gives every one the same result; the name is the model's. -/
inductive IllegalWord where
  /-- `OP ∈ {0x0, 0x8..0xF}` -/
  | reservedOpcode
  /-- `RSV ≠ 0` -/
  | reservedFieldSet
  /-- `OP ∈ {0x3..0x7}` and `A8[7] = 1` -/
  | registerNumberTooHigh
  /-- `OP ∈ {0x1..0x5}` and `D32 ≠ 0` -/
  | dataFieldSet
deriving DecidableEq, Repr

/-- The result type of R86's `Decode`: `Illegal | Cmd(op, a8, d32)`. -/
inductive Decoded where
  | illegal (why : IllegalWord)
  | cmd (i : Instr)
deriving DecidableEq, Repr

namespace CmdField

/-- `OP`, bits 47:44 (R80). -/
def op (w : CmdWord) : BitVec 4 := w.extractLsb' 44 4

/-- `RSV`, bits 43:40 (R80). -/
def rsv (w : CmdWord) : BitVec 4 := w.extractLsb' 40 4

/-- `A8`, bits 39:32 (R80). -/
def a8 (w : CmdWord) : Byte := w.extractLsb' 32 8

/-- `D32`, bits 31:0 (R80). -/
def d32 (w : CmdWord) : Word32 := w.extractLsb' 0 32

end CmdField

/-- The command of an opcode, from R81's table with the operands of R82 and R83; `none` for a reserved opcode. -/
def instrOfOpcode (op : BitVec 4) (a8 : Byte) (d32 : Word32) : Option Instr :=
  match op.toNat with
  | 1 => some (.crcSeed a8)
  | 2 => some (.crcUpdate a8)
  | 3 => some (.readReg a8)
  | 4 => some (.readInt a8)
  | 5 => some (.readU32 a8)
  | 6 => some (.writeReg a8 d32)
  | 7 => some (.writeChecked a8 d32)
  | _ => none

/-- R83: whether `D32` is an operand of the command; otherwise the field must be 0. -/
def Instr.takesData : Instr → Bool
  | .crcSeed _ => false
  | .crcUpdate _ => false
  | .readReg _ => false
  | .readInt _ => false
  | .readU32 _ => false
  | .writeReg _ _ => true
  | .writeChecked _ _ => true

/-- `Decode` (R86): the checks of R85 in the order R86 writes them. -/
def decode (w : CmdWord) : Decoded :=
  match instrOfOpcode (CmdField.op w) (CmdField.a8 w) (CmdField.d32 w) with
  | none => .illegal .reservedOpcode
  | some i =>
    if CmdField.rsv w ≠ 0 then .illegal .reservedFieldSet
    else if i.wellFormed = false then .illegal .registerNumberTooHigh
    else if i.takesData = false ∧ CmdField.d32 w ≠ 0 then .illegal .dataFieldSet
    else .cmd i

/-- The opcode of each command (R81). -/
def Instr.opcode : Instr → BitVec 4
  | .crcSeed _ => 0x1
  | .crcUpdate _ => 0x2
  | .readReg _ => 0x3
  | .readInt _ => 0x4
  | .readU32 _ => 0x5
  | .writeReg _ _ => 0x6
  | .writeChecked _ _ => 0x7

/-- The byte operand `A8` (R82). -/
def Instr.byteOperand : Instr → Byte
  | .crcSeed a8 => a8
  | .crcUpdate a8 => a8
  | .readReg a8 => a8
  | .readInt a8 => a8
  | .readU32 a8 => a8
  | .writeReg a8 _ => a8
  | .writeChecked a8 _ => a8

/-- The data word `D32` (R83): 0 where the command takes none. -/
def Instr.dataOperand : Instr → Word32
  | .crcSeed _ => 0
  | .crcUpdate _ => 0
  | .readReg _ => 0
  | .readInt _ => 0
  | .readU32 _ => 0
  | .writeReg _ d32 => d32
  | .writeChecked _ d32 => d32

/-- The command word: `OP`, `RSV = 0`, `A8` and `D32` side by side (R80, R96). -/
def encode (i : Instr) : CmdWord :=
  i.opcode ++ (0 : BitVec 4) ++ i.byteOperand ++ i.dataOperand

/-- The 48-bit word whose low `nbits` bits are those of `w` and whose other bits are 0. A command is ONE word (R80), so
the opcode table's bit numbers are the word's own. -/
def tableWord (nbits w : Nat) : CmdWord := BitVec.ofNat 48 (w % 2 ^ nbits)

/-- The command the decoder reads from an instruction given as the opcode table numbers its bits. -/
def decodeTableWord (nbits w : Nat) : Option Instr :=
  match decode (tableWord nbits w) with
  | .illegal _ => none
  | .cmd i => some i

end Sys2Proof
end

