-- ==== Sys2Proof/Config.lean ====
section
/-! DEFINITION. The configuration of 00_scope.md R5 and its legality (R6). It is fixed for the life of an
instance (70_reset_and_hazards.md R263): `State.cfg` carries it so that every statement quantifies over it,
and no event changes it. -/

namespace Sys2Proof

/-- The parameters of R5 that an instance may choose. `P_POLY` and `P_FRAME_CRC_INIT`, for which R5 and R122 give one
value and no default, are the constants `Config.poly` and `Config.frameCrcInit`. -/
structure Config where
  /-- `P_SYNC` -/
  sync : Byte
  /-- `P_NODE` -/
  node : Byte
  /-- `P_WRITE_BIT`, a mask for the register byte of a Write frame -/
  writeBit : Byte
  /-- `P_IFCNT_ADDR`; its 7-bit type is R6's bound `<= 0x7F` -/
  ifcntAddr : Reg7
  /-- `P_REPLY_CRC_FROM`, an index into the Reply frame -/
  replyCrcFrom : Nat
  /-- `P_CRC_REFLECT_IN` -/
  crcReflectIn : Bool
  /-- `P_MAX_TRIES`: total attempts of READ_INT and READ_U32 -/
  maxTries : Nat
  /-- `P_CHK_TRIES`: total attempts of each counter read of WRITE_CHECKED -/
  chkTries : Nat
  /-- `P_T_PAUSE`, in ticks -/
  tPause : Nat
  /-- `P_T_BYTE`, in ticks; only the default of `P_T_CAPTURE` is made from it -/
  tByte : Nat
  /-- `P_T_CAPTURE`, in ticks -/
  tCapture : Nat
  /-- `P_T_TX`, in ticks -/
  tTx : Nat
  /-- `P_TICK`, the duration of one tick, here in nanoseconds (DESIGN CHOICE: the unit; assumption 3). No rule reads it. -/
  tickNs : Nat
deriving DecidableEq, Repr

/-- `P_POLY = 0x07`: the generator polynomial (R5, R122). -/
def Config.poly : Byte := 0x07

/-- `P_FRAME_CRC_INIT = 0x00`: the seed of every frame CRC (R5, R128). -/
def Config.frameCrcInit : Byte := 0x00

/-- R6: the legal configurations, with R5's type `Nat ≥ 1` of `P_T_BYTE`. A model gives any other no meaning. -/
def Config.legal (c : Config) : Bool :=
  decide (1 ≤ c.maxTries) && decide (c.maxTries ≤ 255) && decide (1 ≤ c.chkTries) && decide (c.chkTries ≤ 255) &&
  decide (1 ≤ c.tTx) && decide (1 ≤ c.tCapture) && decide (1 ≤ c.tByte) &&
  (decide (c.replyCrcFrom = 0) || decide (c.replyCrcFrom = 4))

/-- R5's default of `P_T_CAPTURE` from `P_T_BYTE`. -/
def Config.defaultCapture (tByte : Nat) : Nat := 3 * tByte

/-- The advice of R6 and R271 that the pause last at least about 0.5 ms, taken as exactly 500000 ns (DESIGN CHOICE: the spec
says "about"; assumption 25). No rule of the machine depends on it. -/
abbrev Config.PauseFloorMet (c : Config) : Prop := 500000 ≤ c.tPause * c.tickNs

/-- The configuration `State.reset` carries: R5's defaults, and for the OPEN parameters the example configuration of
95_test_vectors.md §0 (DESIGN CHOICE, assumption 2: a statement never rests on it, it quantifies over `State.cfg`). -/
def Config.atReset : Config where
  sync := 0x05
  node := 0x00
  writeBit := 0x80
  ifcntAddr := 0x02
  replyCrcFrom := 0
  crcReflectIn := false
  maxTries := 10
  chkTries := 10
  tPause := 2
  tByte := 2
  tCapture := Config.defaultCapture 2
  tTx := 4
  tickNs := 250000

end Sys2Proof
end

