-- ==== Sys2Proof/Machine/Crc.lean ====
section
/-! DEFINITION. The CRC function of 40_crc.md R120 to R122. -/

namespace Sys2Proof.Machine

/-- One iteration of R120: shift the register left, and add the polynomial if the bit shifted out differs from the
input bit. -/
def crcBit (c : Byte) (bit : Bool) : Byte :=
  if c.getLsbD 7 != bit then (c <<< 1) ^^^ Config.poly else c <<< 1

/-- The bits of an input byte in the order R120 takes them: `b[7]` first, or `b[0]` first under `P_CRC_REFLECT_IN`. -/
def inputBits (reflectIn : Bool) (b : Byte) : List Bool :=
  if reflectIn then
    [b.getLsbD 0, b.getLsbD 1, b.getLsbD 2, b.getLsbD 3, b.getLsbD 4, b.getLsbD 5, b.getLsbD 6, b.getLsbD 7]
  else
    [b.getLsbD 7, b.getLsbD 6, b.getLsbD 5, b.getLsbD 4, b.getLsbD 3, b.getLsbD 2, b.getLsbD 1, b.getLsbD 0]

/-- `CrcByte(c, b)` (R120). -/
def crcByte (reflectIn : Bool) (c b : Byte) : Byte := (inputBits reflectIn b).foldl crcBit c

/-- `crc8(bs, initial)` (R121): the left fold of `CrcByte` from the seed, with no final XOR (R122). -/
def crc8 (reflectIn : Bool) (bs : List Byte) (initial : Byte) : Byte := bs.foldl (crcByte reflectIn) initial

end Sys2Proof.Machine
end

