-- ==== Sys2Proof/Machine/State.lean ====
section
/-! DEFINITION. The state record `S` of 10_state.md (R20 to R34), the events of 00_scope.md R10, the ways a step can
stop, and the state after reset (70_reset_and_hazards.md R261). -/

namespace Sys2Proof.Machine

/-- The block has no trap mechanism: every error is a completion status (60_exceptions.md, its opening and R236). No
operation raises a fault, so the type has no constructor. -/
inductive Fault
deriving DecidableEq, Repr

/-- Why the model gives a step or a read no meaning. -/
inductive Refusal where
  /-- Raised by an arm of `exec` for an instruction without a meaning yet; no arm does so now. Safe. -/
  | notModelled (mnemonic : String)
  /-- Raised by `step` where the configuration is not legal (00_scope.md R6, 93_implementation_defined.md U12: "A model
  refuses any other configuration"). Safe. -/
  | illegalConfiguration
  /-- Raised by `hostReadRespData` where `resp_valid = 0` (70_reset_and_hazards.md R265, 93_implementation_defined.md U9:
  "A model refuses a read of `resp_data` while `resp_valid = 0`"). No step raises it. Safe. -/
  | responseNotValid
deriving DecidableEq, Repr

/-- `S.phase` (R22). -/
inductive Phase where
  | idle | tx | pause | capture | backoff
deriving DecidableEq, Repr

/-- `S.op` (R23): the running command, opcodes 3 to 7 of 30_encoding.md R81. -/
inductive TransportOp where
  | readReg | readInt | readU32 | writeReg | writeChecked
deriving DecidableEq, Repr

/-- `S.stage` (R24). -/
inductive Stage where
  | main | before | write | after
deriving DecidableEq, Repr

/-- `S.kind` (R25): `R` or `W`. -/
inductive Kind where
  | read | write
deriving DecidableEq, Repr

/-- `S.rx` (R29): the state of the RX sync unit. -/
inductive RxMode where
  | off | hunt | collect | full
deriving DecidableEq, Repr

/-- One record of `S.diag` (R34, 60_exceptions.md R233). -/
structure DiagEntry where
  curAddr : Reg7
  computed : Byte
  received : Byte
deriving DecidableEq, Repr

/-- The events of 00_scope.md R10. The environment chooses them; the machine never does. -/
inductive Event where
  /-- `Cmd(w)`: the host presents the command word `w` -/
  | cmd (w : CmdWord)
  /-- `RxByte(b)`: the line delivers a byte -/
  | rxByte (b : Byte)
  /-- `TxAccept`: the line takes the byte offered on `tx_byte` -/
  | txAccept
  /-- `Tick`: one unit of the time base -/
  | tick
  /-- `Reset` -/
  | reset
deriving DecidableEq, Repr

/-- The block. Every field but `cfg` and `events` is an element of `S` (R20 to R34). -/
structure State where
  /-- the MODEL's own: the instance's configuration (00_scope.md R5), which no event changes (R20) -/
  cfg : Config
  /-- `S.crc` (R21) -/
  crc : Byte
  /-- `S.phase` (R22) -/
  phase : Phase
  /-- `S.op` (R23) -/
  op : TransportOp
  /-- `S.addr` (R23) -/
  addr : Reg7
  /-- `S.data` (R23) -/
  data : Word32
  /-- `S.stage` (R24) -/
  stage : Stage
  /-- `S.kind` (R25) -/
  kind : Kind
  /-- `S.tx_frame` (R25), first byte on the wire first -/
  txFrame : List Byte
  /-- `S.tx_idx` (R25) -/
  txIdx : Nat
  /-- `S.timer` (R26), unbounded as D31 has it -/
  timer : Nat
  /-- `S.attempt` (R27) -/
  attempt : Nat
  /-- `S.limit` (R27) -/
  limit : Nat
  /-- `S.cur_addr` (R28) -/
  curAddr : Reg7
  /-- `S.rx` (R29) -/
  rx : RxMode
  /-- `S.rx_buf` (R30); `S.rx_cnt` is its length (`State.rxCnt`) -/
  rxBuf : List Byte
  /-- `S.before` (R31) -/
  before : Byte
  /-- `S.crc_acc` (R32) -/
  crcAcc : Bool
  /-- `S.resp_valid` (R33) -/
  respValid : Bool
  /-- `S.resp_status` (R33) -/
  respStatus : BitVec 2
  /-- `S.resp_data` (R33) -/
  respData : Word32
  /-- `S.resp_crc_ok` (R33) -/
  respCrcOk : Bool
  /-- `S.wire` (R34), oldest byte first -/
  wire : List Byte
  /-- `S.diag` (R34), oldest record first -/
  diag : List DiagEntry
  /-- the MODEL's own: the events the environment delivers from here on, next first (R10). Quantifying over it is
  quantifying over every behaviour of the host, the line, the remote chip and the clock. -/
  events : List Event
deriving DecidableEq, Repr

/-- `S.rx_cnt = len(S.rx_buf)` (R30). -/
def State.rxCnt (s : State) : Nat := s.rxBuf.length

/-- The state of 70_reset_and_hazards.md R261 with empty records (95_test_vectors.md §0) and no event delivered. The
elements R261 gives "no value" (`op`, `addr`, `data`, `stage`, `kind`, `attempt`, `limit`, `curAddr`, `before`,
`respData`) hold the values assumption 1 names (DESIGN CHOICE). -/
def State.reset : State where
  cfg := Config.atReset
  crc := 0x00
  phase := .idle
  op := .readReg
  addr := 0
  data := 0
  stage := .main
  kind := .read
  txFrame := []
  txIdx := 0
  timer := 0
  attempt := 1
  limit := 1
  curAddr := 0
  rx := .off
  rxBuf := []
  before := 0
  crcAcc := true
  respValid := false
  respStatus := 0
  respData := 0
  respCrcOk := true
  wire := []
  diag := []
  events := []

end Sys2Proof.Machine
end

