-- ==== Sys2Proof/Machine/Operands.lean ====
section
/-! DEFINITION. How operands and results are read out of bits (30_encoding.md R82, R83; 42_read.md R184). -/

namespace Sys2Proof.Machine

/-- The register number `A8[6:0]` (R82), with no extension or scaling. -/
def regNumber (a8 : Byte) : Reg7 := a8.extractLsb' 0 7

/-- `zext_32` of a byte (R9; R123, R124). -/
def zext32 (b : Byte) : Word32 := b.setWidth 32

/-- `zext_32` of one bit (R203). -/
def zextBit (b : Bool) : Word32 := if b then 1 else 0

/-- `v[7:0]` (R203): the only part of a counter read that is compared. -/
def lowByte (v : Word32) : Byte := v.extractLsb' 0 8

/-- `be32` (00_scope.md R8): the byte sent first is the most significant. -/
def be32 (b0 b1 b2 b3 : Byte) : Word32 := b0 ++ b1 ++ b2 ++ b3

/-- The four bytes of a word in wire order, bits [31:24] first (20_memory.md R61). -/
def bigEndianBytes (d : Word32) : List Byte :=
  [d.extractLsb' 24 8, d.extractLsb' 16 8, d.extractLsb' 8 8, d.extractLsb' 0 8]

/-- The number a read command's `resp_data` stands for (R184): `sint` for READ_INT, `uint` for READ_REG and READ_U32. A
write command's word is read as `uint`: it is 0, or WRITE_CHECKED's bit (R201, R202). -/
def resultValue : TransportOp → Word32 → Int
  | .readInt, d => d.toInt
  | .readReg, d => d.toNat
  | .readU32, d => d.toNat
  | .writeReg, d => d.toNat
  | .writeChecked, d => d.toNat

end Sys2Proof.Machine
end

