-- ==== Sys2Proof/Machine/Frames.lean ====
section
/-! DEFINITION. The frame codec: 30_encoding.md R87 to R95. -/

namespace Sys2Proof.Machine

/-- The frame CRC instance (40_crc.md R128): seed `P_FRAME_CRC_INIT`, no register of its own, `S.crc` untouched. -/
def frameCrc (c : Config) (bs : List Byte) : Byte := crc8 c.crcReflectIn bs Config.frameCrcInit

/-- A header with its check byte appended (R91, R92). -/
def sealFrame (c : Config) (header : List Byte) : List Byte := header ++ [frameCrc c header]

/-- `ReadFrame(a)` (R91, layout R87). -/
def readFrame (c : Config) (a : Reg7) : List Byte := sealFrame c [c.sync, c.node, a.setWidth 8]

/-- `WriteFrame(a, d)` (R92, layout R88). -/
def writeFrame (c : Config) (a : Reg7) (d : Word32) : List Byte :=
  sealFrame c ([c.sync, c.node, a.setWidth 8 ||| c.writeBit] ++ bigEndianBytes d)

/-- The length a receiver of the block's frames reads from byte 2 (R90): 8 with the write-bit set, else 4. -/
def frameLengthFromByte2 (c : Config) (byte2 : Byte) : Nat := if byte2 &&& c.writeBit = 0 then 4 else 8

/-- The length of a Reply frame (R89). -/
def replyLength : Nat := 12

/-- `ReplyValue(r)` (R93): bytes 7 to 10, big-endian. Only called on a full buffer of 12 bytes (R158). -/
def replyValue (r : List Byte) : Word32 := be32 (r.getD 7 0) (r.getD 8 0) (r.getD 9 0) (r.getD 10 0)

/-- `crc8(r[P_REPLY_CRC_FROM .. 10], P_FRAME_CRC_INIT)` (R94). -/
def replyCrcComputed (c : Config) (r : List Byte) : Byte := frameCrc c ((r.take 11).drop c.replyCrcFrom)

/-- `r[11]`, the received CRC byte (R89). -/
def replyCrcReceived (r : List Byte) : Byte := r.getD 11 0

/-- `ReplyCrcOk(r)` (R94). -/
def replyCrcOk (c : Config) (r : List Byte) : Bool := replyCrcComputed c r == replyCrcReceived r

end Sys2Proof.Machine
end

