-- ==== Sys2Proof/Machine/Flags.lean ====
section
/-! DEFINITION. Status codes and flag computations: 60_exceptions.md R230, 10_state.md R32 and R39, 43_write.md R204. -/

namespace Sys2Proof.Machine

/-- Status 0, OK (R230). -/
def statusOk : BitVec 2 := 0

/-- Status 1, TransportTimeout (R230). -/
def statusTransportTimeout : BitVec 2 := 1

/-- Status 2, IllegalCommand (R230). -/
def statusIllegalCommand : BitVec 2 := 2

/-- Status 3, reserved and never produced (R230, 93_implementation_defined.md U16). -/
def statusReserved : BitVec 2 := 3

/-- `Verified(b, a)` (R204): whether the counter advanced modulo 256 by at least 1. -/
def verified (before after : Byte) : Bool := decide (1 ≤ ((after.toNat : Int) - before.toNat) % 256)

/-- `S.crc_acc` after a captured reply (R32, R152). -/
def accumulateCrc (c : Config) (acc : Bool) (r : List Byte) : Bool := acc && replyCrcOk c r

/-- The `Diag` records a captured reply leaves (R152, R233): one if its CRC check failed, else none. -/
def diagRecords (c : Config) (curAddr : Reg7) (r : List Byte) : List DiagEntry :=
  if replyCrcOk c r then [] else [⟨curAddr, replyCrcComputed c r, replyCrcReceived r⟩]

end Sys2Proof.Machine
end

