-- ==== Sys2Proof/Machine/Ops.lean ====
section
/-! DEFINITION. The machinery every command shares: Finish and the error completions, the starts of a
sub-transaction and of an attempt, what ends one, `Settle`, the event handlers and Reset (41_transaction.md R143 to R156,
42_read.md R180, 43_write.md R201 and R203, 70_reset_and_hazards.md R260). -/

namespace Sys2Proof.Machine

/-! ### Ending a command -/

/-- `Finish(st, d)` (R156). -/
def finish (st : BitVec 2) (d : Word32) (s : State) : State :=
  { s with
    respValid := true, respStatus := st, respData := d, respCrcOk := s.crcAcc
    phase := .idle, rx := .off, rxBuf := [], txFrame := [], txIdx := 0, timer := 0 }

/-- `raise TransportTimeout` of a command that reports it (R9, R180, R201). The block has no trap entry: an error ends the
command through `Finish` (60_exceptions.md R236). -/
def raiseTransportTimeout (s : State) : State := finish statusTransportTimeout 0 s

/-- `raise IllegalCommand` (R9): `Finish(2, 0)` at accept (30_encoding.md R85). -/
def raiseIllegalCommand (s : State) : State := finish statusIllegalCommand 0 s

/-! ### Starting sub-transactions (R155) -/

/-- `StartAttempt()`: arm the RX unit and send the Read frame from its first byte. -/
def startAttempt (s : State) : State :=
  { s with
    rx := .hunt, rxBuf := []
    txFrame := readFrame s.cfg s.curAddr, txIdx := 0, phase := .tx, timer := 0 }

/-- `StartRead(a, n)`. -/
def startRead (a : Reg7) (n : Nat) (s : State) : State :=
  startAttempt { s with kind := .read, curAddr := a, limit := n, attempt := 1 }

/-- `StartWrite(a, d)`: the RX unit is disarmed. -/
def startWrite (a : Reg7) (d : Word32) (s : State) : State :=
  { s with
    kind := .write, rx := .off, rxBuf := []
    txFrame := writeFrame s.cfg a d, txIdx := 0, phase := .tx, timer := 0 }

/-! ### The end of a sub-transaction: `SubDone` -/

/-- `SubDone(ok, v)` of READ_REG, READ_INT and READ_U32 (42_read.md R180). -/
def subDoneRead (ok : Bool) (v : Word32) (s : State) : State :=
  if ok then finish statusOk v s else raiseTransportTimeout s

/-- `SubDone(ok, _)` of WRITE_REG (43_write.md R201). -/
def subDoneWriteReg (ok : Bool) (s : State) : State :=
  if ok then finish statusOk 0 s else raiseTransportTimeout s

/-- `SubDone(ok, v)` of WRITE_CHECKED (43_write.md R203). R203 has no case for stage MAIN, which WRITE_CHECKED never is in
(R24, `Inv.stage_of_op`); there the result is R203's "false" (DESIGN CHOICE, assumption 5). -/
def subDoneWriteChecked (ok : Bool) (v : Word32) (s : State) : State :=
  match s.stage with
  | .before =>
    if ok then startWrite s.addr s.data { s with before := lowByte v, stage := .write }
    else finish statusOk 0 s
  | .write =>
    if ok then startRead s.cfg.ifcntAddr s.cfg.chkTries { s with stage := .after }
    else finish statusOk 0 s
  | .after =>
    if ok then finish statusOk (zextBit (verified s.before (lowByte v))) s
    else finish statusOk 0 s
  | .main => finish statusOk 0 s

/-- `SubDone` of the running command. -/
def subDone (ok : Bool) (v : Word32) (s : State) : State :=
  match s.op with
  | .readReg => subDoneRead ok v s
  | .readInt => subDoneRead ok v s
  | .readU32 => subDoneRead ok v s
  | .writeReg => subDoneWriteReg ok s
  | .writeChecked => subDoneWriteChecked ok v s

/-! ### The internal transitions -/

/-- `TxDone()` (R150): the pause after a Read frame, none after a Write frame. -/
def txDone (s : State) : State :=
  match s.kind with
  | .read => { s with phase := .pause, timer := 0 }
  | .write => subDone true 0 s

/-- The RX unit disarmed: `OFF` with an empty buffer (R145). -/
def disarm (s : State) : State := { s with rx := .off, rxBuf := [] }

/-- `AttemptFailed()` (R153): back off if attempts are left, else the sub-transaction has failed. -/
def attemptFailed (s : State) : State :=
  if s.kind = .read ∧ s.attempt < s.limit then
    { disarm s with attempt := s.attempt + 1, phase := .backoff, timer := 0 }
  else
    subDone false 0 (disarm s)

/-- `ReplyCaptured()` (R152): a CRC mismatch flags and logs; it never rejects (R157). -/
def replyCaptured (s : State) : State :=
  subDone true (replyValue s.rxBuf)
    { disarm s with
      diag := s.diag ++ diagRecords s.cfg s.curAddr s.rxBuf
      crcAcc := accumulateCrc s.cfg s.crcAcc s.rxBuf }

/-- One turn of `Settle`'s loop (R148): the transition that is due, or `none` where the loop returns. In each phase
completion is tested before the timeout. -/
def settleOnce (s : State) : Option State :=
  match s.phase with
  | .idle => none
  | .tx =>
    if s.txIdx = s.txFrame.length then some (txDone s)
    else if s.cfg.tTx ≤ s.timer then some (attemptFailed s)
    else none
  | .pause =>
    if s.cfg.tPause ≤ s.timer then some { s with phase := .capture, timer := 0 } else none
  | .capture =>
    if s.rx = .full then some (replyCaptured s)
    else if s.cfg.tCapture ≤ s.timer then some (attemptFailed s)
    else none
  | .backoff =>
    if s.cfg.tPause ≤ s.timer then some (startAttempt s) else none

/-- `settleOnce` until nothing is due, at most the given number of turns. -/
def settleFor : Nat → State → State
  | 0, s => s
  | n + 1, s =>
    match settleOnce s with
    | none => s
    | some t => settleFor n t

/-- `Settle()` (R148). Three turns are enough in a legal configuration: the longest chain is TX, PAUSE, CAPTURE and out of
it, and `Settle` stops in a TX just entered. `Obligations.SettleReachesQuiescence` states it. -/
def settle (s : State) : State := settleFor 3 s

/-! ### The event handlers -/

/-- `OnRx(b)` (R145). -/
def onRx (b : Byte) (s : State) : State :=
  match s.rx with
  | .off => s
  | .hunt => if b = s.cfg.sync then { s with rxBuf := [b], rx := .collect } else s
  | .collect =>
    { s with
      rxBuf := s.rxBuf ++ [b]
      rx := if (s.rxBuf ++ [b]).length = replyLength then .full else .collect }
  | .full => s

/-- The byte offered on the TX port, `none` while `tx_valid = 0` (10_state.md R35). -/
def txByte (s : State) : Option Byte :=
  match s.phase with
  | .tx => s.txFrame[s.txIdx]?
  | .idle => none
  | .pause => none
  | .capture => none
  | .backoff => none

/-- `OnTxAccept()` (R147): `Emit` the byte offered; ignored where none is. -/
def onTxAccept (s : State) : State :=
  match txByte s with
  | some b => { s with wire := s.wire ++ [b], txIdx := s.txIdx + 1 }
  | none => s

/-- `OnTick()` (R149). -/
def onTick (s : State) : State :=
  if s.phase = .idle then s else { s with timer := s.timer + 1 }

/-- `ResetState()` (70_reset_and_hazards.md R260, R261): every element at its reset value, but for the observation records.
The configuration and the events still to come are not the block's state. -/
def resetState (s : State) : State :=
  { State.reset with cfg := s.cfg, wire := s.wire, diag := s.diag, events := s.events }

/-! ### Accepting a command -/

/-- The first two writes of `Accept(w)` (R144). -/
def openCommand (s : State) : State := { s with respValid := false, crcAcc := true }

/-- `OnCmd` (R143): in IDLE the command is accepted and `body` (R144) runs; in any other phase it is held, and the step
changes no state. -/
def accept (body : State → State) (s : State) : State :=
  if s.phase = .idle then body (openCommand s) else s

/-- What `Accept` latches for opcodes 3 to 7 (R144): the opcode, the register number and the data word. -/
def latch (op : TransportOp) (a8 : Byte) (d : Word32) (s : State) : State :=
  { s with op := op, addr := regNumber a8, data := d }

/-- `S.stage <- st`, the first write of every `Begin` (42_read.md, 43_write.md). -/
def enterStage (st : Stage) (s : State) : State := { s with stage := st }

end Sys2Proof.Machine
end

