-- ==== Sys2Proof/Machine/CrcCommands.lean ====
section
/-! DEFINITION. The meanings of CRC_SEED and CRC_UPDATE (40_crc.md R123, R124). -/

namespace Sys2Proof.Machine

/-- `CRC_SEED` (R123): load the CRC register. -/
def execCrcSeed (a8 : Byte) (s : State) : Host.Outcome State Fault Refusal :=
  .next (accept (fun t => finish statusOk (zext32 a8) { t with crc := a8 }) s)

/-- `CRC_UPDATE` (R124): feed one byte to the CRC register and report its new value. -/
def execCrcUpdate (a8 : Byte) (s : State) : Host.Outcome State Fault Refusal :=
  .next (accept (fun t =>
    let c := crcByte t.cfg.crcReflectIn t.crc a8
    finish statusOk (zext32 c) { t with crc := c }) s)

end Sys2Proof.Machine
end

