-- ==== Sys2Proof/Machine/ReadCommands.lean ====
section
/-! DEFINITION. The meanings of READ_REG, READ_INT and READ_U32 (42_read.md R181 to R183): each starts its first
attempt; the attempts, the retries and the result are `Settle`'s (`Ops.lean`). -/

namespace Sys2Proof.Machine

/-- What `Accept` and `Begin` do for a read command with `n` attempts (R144, R181 to R183). `D32` is 0 in its word. -/
def beginRead (op : TransportOp) (a8 : Byte) (n : Nat) (s : State) : State :=
  startRead (regNumber a8) n (enterStage .main (latch op a8 0 s))

/-- `READ_REG` (R181): exactly one attempt. -/
def execReadReg (a8 : Byte) (s : State) : Host.Outcome State Fault Refusal :=
  .next (accept (beginRead .readReg a8 1) s)

/-- `READ_INT` (R182): up to `P_MAX_TRIES` attempts; its value is `sint(resp_data)` (R184, `resultValue`). -/
def execReadInt (a8 : Byte) (s : State) : Host.Outcome State Fault Refusal :=
  .next (accept (beginRead .readInt a8 s.cfg.maxTries) s)

/-- `READ_U32` (R183): up to `P_MAX_TRIES` attempts; its value is `uint(resp_data)` (R184, `resultValue`). -/
def execReadU32 (a8 : Byte) (s : State) : Host.Outcome State Fault Refusal :=
  .next (accept (beginRead .readU32 a8 s.cfg.maxTries) s)

end Sys2Proof.Machine
end

