-- ==== Sys2Proof/Machine/WriteCommands.lean ====
section
/-! DEFINITION. The meanings of WRITE_REG and WRITE_CHECKED (43_write.md R200, R202): each starts its first
sub-transaction; what follows is `subDone`'s (`Ops.lean`). -/

namespace Sys2Proof.Machine

/-- `WRITE_REG` (R200): send one Write frame, never retried. -/
def execWriteReg (a8 : Byte) (d32 : Word32) (s : State) : Host.Outcome State Fault Refusal :=
  .next (accept (fun t =>
    startWrite (regNumber a8) d32 (enterStage .main (latch .writeReg a8 d32 t))) s)

/-- `WRITE_CHECKED` (R202): first read the write-counter, with `P_CHK_TRIES` attempts. -/
def execWriteChecked (a8 : Byte) (d32 : Word32) (s : State) : Host.Outcome State Fault Refusal :=
  .next (accept (fun t =>
    startRead t.cfg.ifcntAddr t.cfg.chkTries (enterStage .before (latch .writeChecked a8 d32 t))) s)

end Sys2Proof.Machine
end

