-- ==== Sys2Proof/Machine/Dispatch.lean ====
section
/-! DEFINITION. One arm for each command (30_encoding.md R81): the host presents it on the command port. -/

namespace Sys2Proof.Machine

def exec (i : Instr) (s : State) : Host.Outcome State Fault Refusal :=
  match i with
  | .crcSeed a8 => Sys2Proof.Machine.execCrcSeed a8 s
  | .crcUpdate a8 => Sys2Proof.Machine.execCrcUpdate a8 s
  | .readReg a8 => Sys2Proof.Machine.execReadReg a8 s
  | .readInt a8 => Sys2Proof.Machine.execReadInt a8 s
  | .readU32 a8 => Sys2Proof.Machine.execReadU32 a8 s
  | .writeReg a8 d32 => Sys2Proof.Machine.execWriteReg a8 d32 s
  | .writeChecked a8 d32 => Sys2Proof.Machine.execWriteChecked a8 d32 s

end Sys2Proof.Machine
end

