-- ==== Sys2Proof/Machine/Events.lean ====
section
/-! DEFINITION. `Step(S, ev)` of 41_transaction.md R142: the event's rule and then `Settle`; and the events of one clock
cycle in the order of R141. -/

namespace Sys2Proof.Machine

/-- `Settle` after a handler that goes on. -/
def thenSettle : Host.Outcome State Fault Refusal → Host.Outcome State Fault Refusal
  | .next s => .next (settle s)
  | .fault r => .fault r
  | .refused r => .refused r

/-- `OnCmd(w)` (R143, R144): a legal word is its command's meaning, an illegal one completes with IllegalCommand. -/
def onCmd (w : CmdWord) (s : State) : Host.Outcome State Fault Refusal :=
  match decode w with
  | .illegal _ => .next (accept raiseIllegalCommand s)
  | .cmd i => exec i s

/-- `Step(S, ev)` (R142). Reset runs no `Settle`. -/
def stepEvent (ev : Event) (s : State) : Host.Outcome State Fault Refusal :=
  match ev with
  | .reset => .next (resetState s)
  | .cmd w => thenSettle (onCmd w s)
  | .rxByte b => .next (settle (onRx b s))
  | .txAccept => .next (settle (onTxAccept s))
  | .tick => .next (settle (onTick s))

/-- The environment delivers its next event; with none left to deliver nothing happens, and the run stays where it is
(70_reset_and_hazards.md R270, 93_implementation_defined.md U13; assumption 4). -/
def stepNextEvent (s : State) : Host.Outcome State Fault Refusal :=
  match s.events with
  | [] => .next s
  | ev :: rest => stepEvent ev { s with events := rest }

/-- The machine with the events `evs` delivered next, and no others. -/
def withEvents (evs : List Event) (s : State) : State := { s with events := evs }

/-- The machine with the command word `w` presented next. -/
def presentWord (w : CmdWord) (s : State) : State := { s with events := .cmd w :: s.events }

/-- What the input ports show in one clock cycle. -/
structure ClockInputs where
  reset : Bool
  rxByte : Option Byte
  txAccept : Bool
  tick : Bool
  cmd : Option CmdWord
deriving DecidableEq, Repr

/-- The events of one clock cycle, in the order in which R141 has them act: Reset, RxByte, TxAccept, Tick, Cmd. -/
def serialise (c : ClockInputs) : List Event :=
  (if c.reset then [Event.reset] else []) ++ (c.rxByte.map Event.rxByte).toList ++
  (if c.txAccept then [Event.txAccept] else []) ++ (if c.tick then [Event.tick] else []) ++
  (c.cmd.map Event.cmd).toList

end Sys2Proof.Machine
end

