-- ==== Sys2Proof/Machine/Step.lean ====
section
/-! DEFINITION. One step of the machine: one event of the environment (00_scope.md R10), in a legal configuration (R6). -/

namespace Sys2Proof.Machine

/-- One step. A configuration that is not legal has no meaning (R6, 93_implementation_defined.md U12). -/
def step (s : State) : Host.Outcome State Fault Refusal :=
  if s.cfg.legal then stepNextEvent s else .refused .illegalConfiguration

/-- `s` with the command word `w` (numbered as the opcode table numbers its bits) presented as the next event: the block
fetches nothing (10_state.md R38), its commands arrive on the command port. -/
def State.withFetchWord (s : State) (nbits w : Nat) : State := presentWord (tableWord nbits w) s

end Sys2Proof.Machine
end

