-- ==== Sys2Proof/Machine/Assembler.lean ====
section
/-! DEFINITION. The assembler of 30_encoding.md R96 and its pseudo-instructions (R97): one line of source to the commands
and command words it stands for. It is the host's tool; no step of the machine uses it. -/

namespace Sys2Proof.Machine

/-- A line of source: a command of R96, or a pseudo-instruction of R97, with its operands as the numbers written. -/
inductive AsmLine where
  | crcSeed (imm8 : Int)
  | crcUpdate (imm8 : Int)
  | readReg (reg7 : Int)
  | readInt (reg7 : Int)
  | readU32 (reg7 : Int)
  | writeReg (reg7 imm32 : Int)
  | writeChecked (reg7 imm32 : Int)
  | crc8 (init : Int) (bytes : List Int)
  | readIfcnt
deriving DecidableEq, Repr

/-- `<imm8>`: 0 to 255; refused out of range (R96). -/
def imm8Operand (n : Int) : Option Byte := if 0 ≤ n ∧ n ≤ 255 then some (BitVec.ofInt 8 n) else none

/-- `<reg7>`: 0 to 127, as the byte operand that holds it (R82); refused out of range (R96). -/
def reg7Operand (n : Int) : Option Byte := if 0 ≤ n ∧ n ≤ 127 then some (BitVec.ofInt 8 n) else none

/-- `<imm32>`: 0 to 2^32−1, or −2^31 to −1 as its two's-complement bits; refused out of range (R96). -/
def imm32Operand (n : Int) : Option Word32 :=
  if -2147483648 ≤ n ∧ n ≤ 4294967295 then some (BitVec.ofInt 32 n) else none

/-- The commands of `CRC_UPDATE <b0>, …`, one for each byte (R97). -/
def crcUpdates (bs : List Byte) : List Instr := bs.map Instr.crcUpdate

/-- `CRC8 <init>, <b0>, …` (R97). -/
def expandCrc8 (init : Byte) (bs : List Byte) : List Instr := .crcSeed init :: crcUpdates bs

/-- `READ_IFCNT` (R97): `READ_U32 P_IFCNT_ADDR`. -/
def expandReadIfcnt (c : Config) : Instr := .readU32 (c.ifcntAddr.setWidth 8)

/-- The commands a line stands for; `none` where the assembler refuses an operand (R96, R97). -/
def assembleLine (c : Config) : AsmLine → Option (List Instr)
  | .crcSeed n => (imm8Operand n).map fun b => [.crcSeed b]
  | .crcUpdate n => (imm8Operand n).map fun b => [.crcUpdate b]
  | .readReg r => (reg7Operand r).map fun a => [.readReg a]
  | .readInt r => (reg7Operand r).map fun a => [.readInt a]
  | .readU32 r => (reg7Operand r).map fun a => [.readU32 a]
  | .writeReg r n => (reg7Operand r).bind fun a => (imm32Operand n).map fun d => [.writeReg a d]
  | .writeChecked r n => (reg7Operand r).bind fun a => (imm32Operand n).map fun d => [.writeChecked a d]
  | .crc8 n ns => (imm8Operand n).bind fun i => (ns.mapM imm8Operand).map fun bs => expandCrc8 i bs
  | .readIfcnt => some [expandReadIfcnt c]

/-! ### The text of a line

R96 gives the shape: mnemonic first, operands separated by commas, and its listings end in a comment after `;`. It gives no
grammar of number literals: the model reads decimal and the `0x…` of R7, with a minus sign before either
(DESIGN CHOICE, assumption 10). -/

/-- The value of a digit in a base up to 16. -/
def digitValue (base : Nat) (ch : Char) : Option Nat :=
  let n := ch.toNat
  let v :=
    if 48 ≤ n ∧ n ≤ 57 then n - 48
    else if 97 ≤ n ∧ n ≤ 102 then n - 87
    else if 65 ≤ n ∧ n ≤ 70 then n - 55
    else base
  if v < base then some v else none

/-- The value of a run of digits read after a value `acc`. -/
def digitsValue (base : Nat) : Nat → List Char → Option Nat
  | acc, [] => some acc
  | acc, ch :: rest => (digitValue base ch).bind fun v => digitsValue base (acc * base + v) rest

/-- An unsigned literal: decimal, or hexadecimal after `0x`. -/
def parseNat : List Char → Option Nat
  | [] => none
  | ['0', 'x'] => none
  | '0' :: 'x' :: rest => digitsValue 16 0 rest
  | cs => digitsValue 10 0 cs

/-- A literal with its sign. -/
def parseInt : List Char → Option Int
  | '-' :: rest => (parseNat rest).map fun n => -(n : Int)
  | cs => (parseNat cs).map fun n => (n : Int)

/-- A line without its comment. -/
def stripComment (cs : List Char) : List Char := cs.takeWhile (· != ';')

/-- A piece of text without the blanks around it. -/
def trimBlanks (cs : List Char) : List Char :=
  ((cs.dropWhile (· == ' ')).reverse.dropWhile (· == ' ')).reverse

/-- The pieces between commas; no piece at all in an empty text. -/
def splitCommas : List Char → List (List Char)
  | [] => []
  | cs => cs.splitOn ','

/-- A mnemonic and its operands as a line; `none` for another mnemonic or number of operands. -/
def lineOf (mnemonic : List Char) (args : List Int) : Option AsmLine :=
  match String.ofList mnemonic, args with
  | "CRC_SEED", [n] => some (.crcSeed n)
  | "CRC_UPDATE", [n] => some (.crcUpdate n)
  | "READ_REG", [r] => some (.readReg r)
  | "READ_INT", [r] => some (.readInt r)
  | "READ_U32", [r] => some (.readU32 r)
  | "WRITE_REG", [r, n] => some (.writeReg r n)
  | "WRITE_CHECKED", [r, n] => some (.writeChecked r n)
  | "CRC8", n :: ns => some (.crc8 n ns)
  | "READ_IFCNT", [] => some .readIfcnt
  | _, _ => none

/-- One line of source (R96). -/
def parseLine (cs : List Char) : Option AsmLine :=
  let text := trimBlanks (stripComment cs)
  let mnemonic := text.takeWhile (· != ' ')
  let operands := splitCommas (trimBlanks (text.drop mnemonic.length))
  (operands.mapM fun p => parseInt (trimBlanks p)).bind (lineOf mnemonic)

/-- The command words of one line of source; `none` where the assembler refuses it. -/
def assembleText (c : Config) (cs : List Char) : Option (List CmdWord) :=
  (parseLine cs).bind fun l => (assembleLine c l).map fun is => is.map encode

end Sys2Proof.Machine
end

