-- ==== Sys2Proof/Machine/Ports.lean ====
section
/-! DEFINITION. What the host and the line see: the output ports of 10_state.md R35, the status view of R36, the
position of R38, and the reads a model refuses (70_reset_and_hazards.md R265). -/

namespace Sys2Proof.Machine

/-- `cmd_ready` (R35). -/
def cmdReady (s : State) : Bool := s.phase == .idle

/-- `busy` (R35). -/
def busy (s : State) : Bool := !cmdReady s

/-- `tx_valid` (R35); `tx_byte` is `txByte`. -/
def txValid (s : State) : Bool := s.phase == .tx && decide (s.txIdx < s.txFrame.length)

/-- `crc_out` (R35). -/
def crcOut (s : State) : Byte := s.crc

/-- `diag_crc_mismatch` (R35, R233): the pulse of the step from `s` to `t`, with the three values of the record. -/
def diagCrcMismatch (s t : State) : Option DiagEntry := (t.diag.drop s.diag.length).head?

/-- The host's read of `resp_data`: refused while `resp_valid = 0` (R36, R265, 93_implementation_defined.md U9). -/
def hostReadRespData (s : State) : Except Refusal Word32 :=
  if s.respValid then .ok s.respData else .error .responseNotValid

/-- The read-only status view of R36; `respData` is `none` where its read is refused. -/
structure StatusView where
  cmdReady : Bool
  respValid : Bool
  respStatus : BitVec 2
  respData : Option Word32
  respCrcOk : Bool
  crcOut : Byte
deriving DecidableEq, Repr

/-- The view of a state (R36). -/
def statusView (s : State) : StatusView where
  cmdReady := cmdReady s
  respValid := s.respValid
  respStatus := s.respStatus
  respData := if s.respValid then some s.respData else none
  respCrcOk := s.respCrcOk
  crcOut := crcOut s

/-- The position in a command, `(S.phase, S.stage, S.attempt)` (R38). -/
def position (s : State) : Phase × Stage × Nat := (s.phase, s.stage, s.attempt)

end Sys2Proof.Machine
end

