-- ==== Sys2Proof/Safety.lean ====
section
/-! DEFINITION. What the statements about the machine are said with: the invariant of its reachable states
(10_state.md R26 to R30 and R41, 41_transaction.md R159), runs over the environment's events, the tick bounds of
70_reset_and_hazards.md R272, and which elements of the state carry meaning (R22, R261). -/

namespace Sys2Proof.Machine

/-! ### The invariant -/

/-- The number of attempts a read sub-transaction of a command may make (10_state.md R27). -/
def attemptLimit (c : Config) : TransportOp → Nat
  | .readReg => 1
  | .readInt => c.maxTries
  | .readU32 => c.maxTries
  | .writeReg => 1
  | .writeChecked => c.chkTries

/-- The register a read sub-transaction of a command reads (10_state.md R28). -/
def readAddress (c : Config) (addr : Reg7) : TransportOp → Reg7
  | .readReg => addr
  | .readInt => addr
  | .readU32 => addr
  | .writeReg => addr
  | .writeChecked => c.ifcntAddr

/-- The stages a command passes through, with what each sends (10_state.md R24, R25). -/
def stageKindOk : TransportOp → Stage → Kind → Bool
  | .readReg, st, k => st == .main && k == .read
  | .readInt, st, k => st == .main && k == .read
  | .readU32, st, k => st == .main && k == .read
  | .writeReg, st, k => st == .main && k == .write
  | .writeChecked, st, k =>
    (st == .before && k == .read) || (st == .write && k == .write) || (st == .after && k == .read)

/-- The frame of the running sub-transaction (41_transaction.md R155). -/
def currentFrame (s : State) : List Byte :=
  match s.kind with
  | .read => readFrame s.cfg s.curAddr
  | .write => writeFrame s.cfg s.addr s.data

/-- What holds of every state at the end of a step of a legal instance: the clauses of 10_state.md R41, the ranges of R25
to R30 and 41_transaction.md R159, and what R144 to R156 keep true beside them. -/
structure Inv (s : State) : Prop where
  /-- R6, R263 -/
  legal : s.cfg.legal = true
  /-- R41; the two counters are Finish's (R156) -/
  idle_clear : s.phase = .idle → s.rx = .off ∧ s.txFrame = [] ∧ s.txIdx = 0 ∧ s.timer = 0
  /-- R41 -/
  armed_phase : s.rx ≠ .off → s.kind = .read ∧ (s.phase = .tx ∨ s.phase = .pause ∨ s.phase = .capture)
  /-- R145: the unit stays armed through TX, PAUSE and CAPTURE of a read -/
  stays_armed : s.kind = .read → (s.phase = .tx ∨ s.phase = .pause ∨ s.phase = .capture) → s.rx ≠ .off
  /-- R140: only a read sub-transaction waits -/
  waits_for_read : (s.phase = .pause ∨ s.phase = .capture ∨ s.phase = .backoff) → s.kind = .read
  /-- R41 -/
  backoff_attempt : s.phase = .backoff → 2 ≤ s.attempt
  /-- R41 -/
  full_iff : s.rx = .full ↔ s.rxBuf.length = 12
  /-- R30 -/
  buf_bound : s.rxBuf.length ≤ 12
  /-- R30 -/
  buf_empty : (s.rx = .off ∨ s.rx = .hunt) → s.rxBuf = []
  /-- R145 -/
  buf_started : s.rx = .collect → s.rxBuf ≠ []
  /-- R41 -/
  buf_head : s.rxBuf = [] ∨ s.rxBuf.head? = some s.cfg.sync
  /-- R155 -/
  frame_of_stage : s.phase ≠ .idle → s.txFrame = currentFrame s
  /-- R25; R148 leaves TX once every byte is accepted -/
  tx_unfinished : s.phase = .tx → s.txIdx < s.txFrame.length
  /-- R159 -/
  timer_tx : s.phase = .tx → s.timer < s.cfg.tTx
  /-- R159 -/
  timer_pause : (s.phase = .pause ∨ s.phase = .backoff) → s.timer < s.cfg.tPause
  /-- R159 -/
  timer_capture : s.phase = .capture → s.timer < s.cfg.tCapture
  /-- R148: a full buffer is captured at once -/
  capture_open : s.phase = .capture → s.rx ≠ .full
  /-- R27 -/
  attempt_range : s.phase ≠ .idle → s.kind = .read → 1 ≤ s.attempt ∧ s.attempt ≤ s.limit ∧ s.limit ≤ 255
  /-- R24, R25 -/
  stage_of_op : s.phase ≠ .idle → stageKindOk s.op s.stage s.kind = true
  /-- R27, R28 -/
  read_target : s.phase ≠ .idle → s.kind = .read →
    s.limit = attemptLimit s.cfg s.op ∧ s.curAddr = readAddress s.cfg s.addr s.op
  /-- R144, R156, R265: there is no response while a command runs -/
  response_closed : s.phase ≠ .idle → s.respValid = false
  /-- 60_exceptions.md R230, 93_implementation_defined.md U16 -/
  status_produced : s.respStatus ≠ statusReserved

/-- A step that goes on, as every step of a legal instance does (60_exceptions.md R236). -/
def SafeStep (s : State) : Prop := ∃ t, step s = .next t

/-! ### Runs -/

/-- The run over the events `evs`, delivered in order, one a step. -/
def after (evs : List Event) (s : State) : Host.Outcome State Fault Refusal :=
  Host.Core.run Sys2Proof.core evs.length (withEvents evs s)

/-- Events that neither present a command nor reset the block. -/
abbrev LineEvents (evs : List Event) : Prop := ∀ e ∈ evs, e ≠ .reset ∧ ∀ w, e ≠ .cmd w

/-- The number of ticks among events. -/
def tickCount (evs : List Event) : Nat := evs.count .tick

/-- The line accepts `n` bytes. -/
def accepts (n : Nat) : List Event := List.replicate n .txAccept

/-- `n` ticks pass. -/
def ticks (n : Nat) : List Event := List.replicate n .tick

/-- Bytes arrive on RX. -/
def receives (bs : List Byte) : List Event := bs.map .rxByte

/-- The bytes received among events. -/
def receivedBytes (evs : List Event) : List Byte :=
  evs.filterMap fun e => match e with
    | .rxByte b => some b
    | .cmd _ => none
    | .txAccept => none
    | .tick => none
    | .reset => none

/-- Bytes that hold no whole reply: no sync byte among them has eleven bytes after it (41_transaction.md R146). -/
abbrev NoWholeReply (c : Config) (bs : List Byte) : Prop := ∀ i : Nat, bs[i]? = some c.sync → bs.length < i + 12

/-- A Reply frame after bytes of which none is the sync byte (30_encoding.md R89, 41_transaction.md R146). -/
abbrev ReplyAfterNoise (c : Config) (noise reply : List Byte) : Prop :=
  c.sync ∉ noise ∧ reply.length = 12 ∧ reply.head? = some c.sync

/-- A read attempt that fails, by one of the two transport faults of 41_transaction.md R153. -/
inductive FailedAttempt where
  /-- a short write: `sent` bytes of the Read frame are accepted before `P_T_TX` ticks pass, whatever bytes arrive -/
  | shortWrite (received : List Byte) (sent : Nat)
  /-- no frame found: the frame is accepted, and the bytes that arrive in TX, PAUSE and CAPTURE hold no whole reply -/
  | noReply (inTx inPause inCapture : List Byte)
deriving DecidableEq, Repr

/-- What makes an attempt fail so. -/
abbrev FailedAttempt.Fails (c : Config) : FailedAttempt → Prop
  | .shortWrite _ sent => sent < 4
  | .noReply inTx inPause inCapture => NoWholeReply c (inTx ++ inPause ++ inCapture)

/-- The events of a failed attempt, from its TX to its timeout. -/
def FailedAttempt.events (c : Config) : FailedAttempt → List Event
  | .shortWrite received sent => receives received ++ accepts sent ++ ticks c.tTx
  | .noReply inTx inPause inCapture =>
    receives inTx ++ accepts 4 ++ receives inPause ++ ticks c.tPause ++ receives inCapture ++ ticks c.tCapture

/-- The number of bytes of its Read frame that a failed attempt sends. -/
def FailedAttempt.sent : FailedAttempt → Nat
  | .shortWrite _ sent => sent
  | .noReply _ _ _ => 4

/-- Failed attempts with others left, each with the pause that follows it (R154). -/
def retries (c : Config) (fs : List FailedAttempt) : List Event :=
  (fs.map fun f => f.events c ++ ticks c.tPause).flatten

/-- A read that fails: all its attempts, and no pause after the last one (R153). -/
def failedRead (c : Config) (fs : List FailedAttempt) (last : FailedAttempt) : List Event := retries c fs ++ last.events c

/-- When the bytes of an answer arrive in a read attempt: in TX, in PAUSE, at the start of CAPTURE, and after `wait` ticks of
CAPTURE. `slow` ticks pass before the line accepts the frame. -/
structure Answer where
  inTx : List Byte
  slow : Nat
  inPause : List Byte
  early : List Byte
  wait : Nat
  late : List Byte
deriving DecidableEq, Repr

/-- The events of an answered attempt. -/
def Answer.events (c : Config) (a : Answer) : List Event :=
  receives a.inTx ++ ticks a.slow ++ accepts 4 ++ receives a.inPause ++ ticks c.tPause ++ receives a.early ++
    ticks a.wait ++ receives a.late

/-- The answer is `noise` and then `reply`, in time: the frame before the deadline of TX, the last byte before the deadline of
CAPTURE (41_transaction.md R148). It waits only for bytes still to come. -/
abbrev Answer.Brings (c : Config) (a : Answer) (noise reply : List Byte) : Prop :=
  ReplyAfterNoise c noise reply ∧ a.inTx ++ a.inPause ++ a.early ++ a.late = noise ++ reply ∧
  a.slow < c.tTx ∧ a.wait < c.tCapture ∧ (a.late = [] → a.wait = 0)

/-- The next event makes the block capture the reply `r` (41_transaction.md R148, R152): it is the reply's last byte in CAPTURE;
or the whole reply came before, and it is the tick that ends PAUSE or, without a pause, the acceptance of the Read frame's last
byte (92_eei_decisions.md D12). -/
abbrev Captures (s : State) (r : List Byte) : Prop :=
  (∃ b rest, s.phase = .capture ∧ s.rxBuf.length = 11 ∧ s.events = .rxByte b :: rest ∧ r = s.rxBuf ++ [b]) ∨
  (∃ rest, s.phase = .pause ∧ s.rx = .full ∧ s.timer + 1 = s.cfg.tPause ∧ s.events = .tick :: rest ∧ r = s.rxBuf) ∨
  (∃ rest, s.phase = .tx ∧ s.rx = .full ∧ s.cfg.tPause = 0 ∧ s.txIdx + 1 = s.txFrame.length ∧
    s.events = .txAccept :: rest ∧ r = s.rxBuf)

/-- Events of the line in which it accepts a Write frame in time: eight bytes, the last of them last, and among them fewer than
`P_T_TX` ticks, in any order, with any bytes received (43_write.md R200). -/
abbrev WholeWrite (c : Config) (evs : List Event) : Prop :=
  LineEvents evs ∧ evs.count .txAccept = 8 ∧ evs.getLast? = some .txAccept ∧ tickCount evs < c.tTx

/-- Events of the line in which a Write frame times out: `P_T_TX` ticks, the last of them last, and among them only `sent`
bytes accepted, in any order, with any bytes received (41_transaction.md R153). -/
abbrev ShortWrite (c : Config) (sent : Nat) (evs : List Event) : Prop :=
  LineEvents evs ∧ evs.count .txAccept = sent ∧ sent < 8 ∧ evs.getLast? = some .tick ∧ tickCount evs = c.tTx

/-- Copies of a frame, each cut to its first bytes. -/
def cutCopies (frame : List Byte) (lengths : List Nat) : List Byte :=
  (lengths.map fun k => frame.take k).flatten

/-- The bytes received by the RX sync unit, one after another (R145). -/
def rxReceive (bs : List Byte) (s : State) : State := bs.foldl (fun t b => onRx b t) s

/-! ### Bounds on time (70_reset_and_hazards.md R272) -/

/-- `A` of R272: the most ticks one read attempt takes. -/
def attemptTickBound (c : Config) : Nat := c.tTx - 1 + c.tPause + c.tCapture

/-- The most ticks a read sub-transaction with limit `n` takes. -/
def readTickBound (c : Config) (n : Nat) : Nat := n * attemptTickBound c + (n - 1) * c.tPause

/-- The most ticks a command takes, counted while the block is busy (R272, R273). -/
def commandTickBound (c : Config) : Instr → Nat
  | .crcSeed _ => 0
  | .crcUpdate _ => 0
  | .readReg _ => readTickBound c 1
  | .readInt _ => readTickBound c c.maxTries
  | .readU32 _ => readTickBound c c.maxTries
  | .writeReg _ _ => c.tTx
  | .writeChecked _ _ => 2 * readTickBound c c.chkTries + c.tTx

/-! ### Which elements carry meaning -/

/-- The state with every element that carries no meaning in it set to one value. `resp_data` has meaning only while
`resp_valid = 1` (R265); `op`, `addr`, `data`, `stage` and `kind` only while a command runs (R22); `attempt`, `limit` and
`cur_addr` only while it reads (R27, R28); `before` only in stages WRITE and AFTER (R31); `crc_acc` only while a command
runs (R22). R261 gives most of these no reset value. -/
def eraseMeaningless (s : State) : State :=
  let running := s.phase ≠ .idle
  let reading := running ∧ s.kind = .read
  let comparing := running ∧ (s.stage = .write ∨ s.stage = .after)
  { s with
    respData := if s.respValid then s.respData else 0
    op := if running then s.op else .readReg
    addr := if running then s.addr else 0
    data := if running then s.data else 0
    stage := if running then s.stage else .main
    kind := if running then s.kind else .read
    attempt := if reading then s.attempt else 1
    limit := if reading then s.limit else 1
    curAddr := if reading then s.curAddr else 0
    before := if comparing then s.before else 0
    crcAcc := if running then s.crcAcc else true }

/-- Two states that differ at most in elements that carry no meaning. -/
def SameMeaning (s t : State) : Prop := eraseMeaningless s = eraseMeaningless t

/-- 30_encoding.md R85, said of the bits of the word (R80) and nothing else. -/
abbrev IllegalBits (w : CmdWord) : Prop :=
  (w.extractLsb' 44 4).toNat = 0 ∨ 8 ≤ (w.extractLsb' 44 4).toNat ∨ w.extractLsb' 40 4 ≠ 0 ∨
    (3 ≤ (w.extractLsb' 44 4).toNat ∧ (w.extractLsb' 44 4).toNat ≤ 7 ∧ w.getLsbD 39 = true) ∨
    (1 ≤ (w.extractLsb' 44 4).toNat ∧ (w.extractLsb' 44 4).toNat ≤ 5 ∧ w.extractLsb' 0 32 ≠ 0)

end Sys2Proof.Machine
end

