-- ==== Sys2Proof/Certificates/Slice0/Obligations.lean ====
section
/-! DEFINITION. The statements for the provers. Each docstring names the rules of spec/ it formalises. -/

open Sys2Proof Sys2Proof.Machine

/-! ### Encoding -/

/-- Decoding an encoded command gives it back, for every well-formed command (30_encoding.md R80 to R86). -/
def Obligations.DecodeOfEncodeIsIdentity : Prop :=
  ∀ i : Instr, i.wellFormed = true → decode (encode i) = .cmd i

/-- R84: a word that decodes has its reserved fields zero, and every word is either exactly one of the commands or
illegal. -/
def Obligations.EveryWordIsOneCommandOrIllegal : Prop :=
  ∀ w : CmdWord,
    (∀ i, decode w = .cmd i →
      w.extractLsb' 40 4 = 0 ∧
      (3 ≤ (w.extractLsb' 44 4).toNat → (w.extractLsb' 44 4).toNat ≤ 7 → w.getLsbD 39 = false) ∧
      (1 ≤ (w.extractLsb' 44 4).toNat → (w.extractLsb' 44 4).toNat ≤ 5 → w.extractLsb' 0 32 = 0)) ∧
    (((∃ why, decode w = .illegal why) ∧ ¬ ∃ i : Instr, i.wellFormed = true ∧ encode i = w) ∨
     ((¬ ∃ why, decode w = .illegal why) ∧
       ∃ i : Instr, (i.wellFormed = true ∧ encode i = w ∧ decode w = .cmd i) ∧
         ∀ j : Instr, j.wellFormed = true → encode j = w → j = i))

/-- R85's list, said of the bits of the word: exactly those words decode as illegal, and the all-zero word is one. -/
def Obligations.DecodeRefusesExactlyTheIllegalWords : Prop :=
  (∀ w : CmdWord, (∃ why, decode w = .illegal why) ↔ IllegalBits w) ∧ IllegalBits 0

/-- Words written out from the layout of R80 and R81 (95_test_vectors.md §3.1) decode to the commands they stand for. -/
def Obligations.SpecWordsDecodeAsListed : Prop :=
  decode 0x10FF00000000 = .cmd (.crcSeed 0xFF) ∧
  decode 0x205A00000000 = .cmd (.crcUpdate 0x5A) ∧
  decode 0x307F00000000 = .cmd (.readReg 0x7F) ∧
  decode 0x400600000000 = .cmd (.readInt 0x06) ∧
  decode 0x500600000000 = .cmd (.readU32 0x06) ∧
  decode 0x607FFFFFFFFF = .cmd (.writeReg 0x7F 0xFFFFFFFF) ∧
  decode 0x701000011F10 = .cmd (.writeChecked 0x10 0x00011F10) ∧
  decode 0x1F0000000000 = .illegal .reservedFieldSet ∧
  decode 0x20FF00000001 = .illegal .dataFieldSet ∧
  decode 0x6080FFFFFFFF = .illegal .registerNumberTooHigh ∧
  decode 0x800000000000 = .illegal .reservedOpcode

/-- The words R96 gives for a line, and its refusals: an operand in range assembles to the word of R96's listing, a
negative `<imm32>` as its two's-complement bits; an operand out of range is refused. And the pseudo-instructions of R97:
READ_IFCNT is the word of READ_U32 of `P_IFCNT_ADDR`, a CRC8 line the word of CRC_SEED of its first operand and then one
word of CRC_UPDATE for each byte, in order; one whose seed or any byte is out of range is refused. -/
def Obligations.AssemblerFollowsTheListing : Prop :=
  ∀ (c : Config) (n r d : Int) (ns : List Int),
    let words (l : AsmLine) : Option (List Nat) := (assembleLine c l).map (List.map fun i => (encode i).toNat)
    (0 ≤ n ∧ n ≤ 255 →
      words (.crcSeed n) = some [1 * 2 ^ 44 + n.toNat * 2 ^ 32] ∧
      words (.crcUpdate n) = some [2 * 2 ^ 44 + n.toNat * 2 ^ 32]) ∧
    (¬ (0 ≤ n ∧ n ≤ 255) → assembleLine c (.crcSeed n) = none ∧ assembleLine c (.crcUpdate n) = none) ∧
    (0 ≤ r ∧ r ≤ 127 →
      words (.readReg r) = some [3 * 2 ^ 44 + r.toNat * 2 ^ 32] ∧
      words (.readInt r) = some [4 * 2 ^ 44 + r.toNat * 2 ^ 32] ∧
      words (.readU32 r) = some [5 * 2 ^ 44 + r.toNat * 2 ^ 32]) ∧
    (0 ≤ r ∧ r ≤ 127 ∧ -(2 ^ 31) ≤ d ∧ d ≤ 2 ^ 32 - 1 →
      words (.writeReg r d) = some [6 * 2 ^ 44 + r.toNat * 2 ^ 32 + (d % 2 ^ 32).toNat] ∧
      words (.writeChecked r d) = some [7 * 2 ^ 44 + r.toNat * 2 ^ 32 + (d % 2 ^ 32).toNat]) ∧
    (¬ (0 ≤ r ∧ r ≤ 127) →
      assembleLine c (.readReg r) = none ∧ assembleLine c (.readInt r) = none ∧ assembleLine c (.readU32 r) = none) ∧
    (¬ (0 ≤ r ∧ r ≤ 127 ∧ -(2 ^ 31) ≤ d ∧ d ≤ 2 ^ 32 - 1) →
      assembleLine c (.writeReg r d) = none ∧ assembleLine c (.writeChecked r d) = none) ∧
    words .readIfcnt = some [5 * 2 ^ 44 + c.ifcntAddr.toNat * 2 ^ 32] ∧
    ((∀ b ∈ n :: ns, 0 ≤ b ∧ b ≤ 255) →
      words (.crc8 n ns) =
        some ((1 * 2 ^ 44 + n.toNat * 2 ^ 32) :: ns.map fun b => 2 * 2 ^ 44 + b.toNat * 2 ^ 32)) ∧
    (¬ (∀ b ∈ n :: ns, 0 ≤ b ∧ b ≤ 255) → assembleLine c (.crc8 n ns) = none)

/-! ### The step -/

/-- Where the next event presents a word that decodes to `i`, the step is `exec i`, with the events moved on and then
`Settle` (41_transaction.md R142, R143); in a state of the invariant `Settle` has nothing to do after it, and the step IS
`exec i`. The same of a word presented by `withFetchWord`. -/
def Obligations.StepRunsTheDecodedCommand : Prop :=
  (∀ (s t : State) (w : CmdWord) (rest : List Event) (i : Instr),
    s.cfg.legal = true → s.events = .cmd w :: rest → decode w = .cmd i → exec i { s with events := rest } = .next t →
      step s = .next (settle t) ∧ (Inv s → step s = .next t)) ∧
  (∀ (s t : State) (nbits w : Nat) (i : Instr),
    s.cfg.legal = true → decodeTableWord nbits w = some i → exec i s = .next t →
      step (s.withFetchWord nbits w) = .next (settle t))

/-- 00_scope.md R6 and 60_exceptions.md R236: in a legal configuration every step goes on, whatever the state and the
event; in any other the step is refused. The legal configurations are those of R6's conditions (its bounds on `P_T_PAUSE` and
`P_IFCNT_ADDR` are those of the fields' types), with R5's type of `P_T_BYTE`, at least 1 (log entry 14). -/
def Obligations.StepGoesOnExactlyInLegalConfigurations : Prop :=
  (∀ s : State, (s.cfg.legal = true → SafeStep s) ∧ (s.cfg.legal = false → step s = .refused .illegalConfiguration)) ∧
  (∀ c : Config, c.legal = true ↔
    1 ≤ c.maxTries ∧ c.maxTries ≤ 255 ∧ 1 ≤ c.chkTries ∧ c.chkTries ≤ 255 ∧ 1 ≤ c.tTx ∧ 1 ≤ c.tCapture ∧
    0 ≤ c.tPause ∧ (c.replyCrcFrom = 0 ∨ c.replyCrcFrom = 4) ∧ c.ifcntAddr.toNat ≤ 0x7F ∧ 1 ≤ c.tByte)

/-- R148: `Settle` always terminates. In a legal configuration it ends where no transition is due, and more turns of its
loop would change nothing. -/
def Obligations.SettleReachesQuiescence : Prop :=
  ∀ s : State, s.cfg.legal = true → settleOnce (settle s) = none ∧ ∀ n, 3 ≤ n → settleFor n s = settle s

/-- R143: while a command runs, a presented command is held and the step changes no state. -/
def Obligations.BusyBlockHoldsEveryCommand : Prop :=
  ∀ s : State, s.phase ≠ .idle →
    (∀ i : Instr, exec i s = .next s) ∧
    (Inv s → ∀ (w : CmdWord) (rest : List Event), s.events = .cmd w :: rest →
      step s = .next { s with events := rest })

/-- R232: IllegalCommand is raised at accept for exactly the words of R85; it records data 0 and `resp_crc_ok` 1, emits no
byte, starts no timer and does not change `S.crc`. The only element it changes beside the response is `crc_acc`, which
accept sets to 1 (R144; log entry 6). -/
def Obligations.IllegalWordCompletesAtOnce : Prop :=
  ∀ (s : State) (w : CmdWord) (rest : List Event), Inv s → s.phase = .idle → s.events = .cmd w :: rest →
    (IllegalBits w →
      step s = .next { s with
        events := rest, crcAcc := true
        respValid := true, respStatus := 2, respData := 0, respCrcOk := true }) ∧
    (¬ IllegalBits w → ∃ t, step s = .next t ∧ ¬ (t.respValid = true ∧ t.respStatus = 2))

/-- What no command changes when the host presents it: the configuration, the records, the events to come and `before`; a
transport command also leaves `S.crc` and the last response's fields, a CRC command the elements of a transport command, and
WRITE_REG those of a read (40_crc.md R123, R124; 41_transaction.md R144, R155). -/
def Obligations.CommandsLeaveTheRestUnchanged : Prop :=
  ∀ (i : Instr) (s t : State), exec i s = .next t →
    (t.cfg = s.cfg ∧ t.wire = s.wire ∧ t.diag = s.diag ∧ t.events = s.events ∧ t.before = s.before) ∧
    ((∃ a, i = .crcSeed a ∨ i = .crcUpdate a) →
      t.op = s.op ∧ t.addr = s.addr ∧ t.data = s.data ∧ t.stage = s.stage ∧ t.kind = s.kind ∧
      t.attempt = s.attempt ∧ t.limit = s.limit ∧ t.curAddr = s.curAddr ∧
      (Inv s → t.phase = s.phase ∧ t.rx = s.rx ∧ t.rxBuf = s.rxBuf ∧ t.txFrame = s.txFrame ∧ t.txIdx = s.txIdx ∧
        t.timer = s.timer)) ∧
    ((∃ a d, i = .readReg a ∨ i = .readInt a ∨ i = .readU32 a ∨ i = .writeReg a d ∨ i = .writeChecked a d) →
      t.crc = s.crc ∧ t.respStatus = s.respStatus ∧ t.respData = s.respData ∧ t.respCrcOk = s.respCrcOk) ∧
    ((∃ a d, i = .writeReg a d) → t.attempt = s.attempt ∧ t.limit = s.limit ∧ t.curAddr = s.curAddr)

/-! ### The CRC-8 generator -/

/-- R123: CRC_SEED, presented in IDLE, loads the register and completes in that step with the seed as its result; nothing
else changes. The word is R96's, and the rule's example. -/
def Obligations.CrcSeedLoadsTheRegister : Prop :=
  (∀ (b : Byte) (s : State), Inv s → s.phase = .idle →
    exec (.crcSeed b) s = .next { s with
      crc := b, crcAcc := true
      respValid := true, respStatus := 0, respData := b.setWidth 32, respCrcOk := true }) ∧
  (∀ b : Byte, (encode (.crcSeed b)).toNat = 0x1 * 2 ^ 44 + b.toNat * 2 ^ 32 ∧ decode (encode (.crcSeed b)) = .cmd (.crcSeed b)) ∧
  encode (.crcSeed 0xAB) = 0x10AB00000000

/-- R124: CRC_UPDATE, presented in IDLE, feeds its byte to the register and completes in that step with the new value as its
result; nothing else changes. -/
def Obligations.CrcUpdateFeedsOneByte : Prop :=
  ∀ (b : Byte) (s : State), Inv s → s.phase = .idle →
    exec (.crcUpdate b) s = .next { s with
      crc := crcByte s.cfg.crcReflectIn s.crc b, crcAcc := true
      respValid := true, respStatus := 0
      respData := (crcByte s.cfg.crcReflectIn s.crc b).setWidth 32, respCrcOk := true }

/-- R120: with MSB-first input, one byte step is `c ^ b` followed by eight shifts of the register, each adding 0x07 when a 1
is shifted out (an identity the spec marks as derived); with `P_CRC_REFLECT_IN` the bits of the byte are taken from bit 0 up,
so it is the step with the byte whose bits stand in the opposite order. -/
def Obligations.CrcByteIsXorThenEightShifts : Prop :=
  (∀ c b : Byte, crcByte false c b =
    (fun x : Byte => if x.getLsbD 7 then (x <<< 1) ^^^ 0x07 else x <<< 1)^[8] (c ^^^ b)) ∧
  (∀ c b b' : Byte, (∀ i, i < 8 → b'.getLsbD i = b.getLsbD (7 - i)) → crcByte true c b = crcByte false c b')

/-- R125 (a law the spec marks as derived): the CRC of a concatenation is the CRC of its second part from the CRC of its first; hence the expansion of
`CRC8 <init>, …` (R97), presented command by command, ends with `crc8` of the bytes in the register and in `resp_data`,
with status OK, and emits nothing. -/
def Obligations.Crc8SequenceComputesCrc8 : Prop :=
  (∀ (reflectIn : Bool) (a b : List Byte) (i : Byte),
    crc8 reflectIn (a ++ b) i = crc8 reflectIn b (crc8 reflectIn a i)) ∧
  (∀ (init : Byte) (bs : List Byte) (s : State), Inv s → s.phase = .idle →
    ∃ t, after ((expandCrc8 init bs).map fun i => .cmd (encode i)) s = .next t ∧
      t.crc = crc8 s.cfg.crcReflectIn bs init ∧ t.respData = (crc8 s.cfg.crcReflectIn bs init).setWidth 32 ∧
      t.respValid = true ∧ t.respStatus = 0 ∧ t.respCrcOk = true ∧ t.phase = .idle ∧ t.wire = s.wire ∧ t.diag = s.diag)

/-- R126 (its second fact the spec marks as derived): with seed 0 and MSB-first input, a message followed by its CRC has CRC 0, and so has every Read and Write frame
the block builds; recomputing the CRC over the bytes before the last gives the last. -/
def Obligations.SealedMessagesHaveCrcZero : Prop :=
  (∀ bs f : List Byte, f = bs ++ [crc8 false bs 0] →
    crc8 false f 0 = 0 ∧ f.getLast? = some (crc8 false f.dropLast 0)) ∧
  (∀ (c : Config) (a : Reg7) (d : Word32) (f : List Byte), c.crcReflectIn = false →
    (f = readFrame c a ∨ f = writeFrame c a d) →
    crc8 false f 0 = 0 ∧ f.getLast? = some (crc8 false f.dropLast 0))

/-- R127 (a law the spec marks as derived): with MSB-first input, flipping any one bit of a non-empty message changes its CRC, for every length and every
seed. -/
def Obligations.CrcDetectsEverySingleBitFlip : Prop :=
  ∀ (m : List Byte) (seed b : Byte) (k j : Nat), m[k]? = some b → j < 8 →
    crc8 false (m.set k (b ^^^ (1#8 <<< j))) seed ≠ crc8 false m seed

/-- R127's reason (the spec's own inference): the change of the CRC when the bits of an error pattern flip is the CRC of the pattern alone from seed
0, whatever the message and the seed. -/
def Obligations.CrcChangeIsTheErrorPatternsCrc : Prop :=
  ∀ (reflectIn : Bool) (m e : List Byte) (seed : Byte), e.length = m.length →
    crc8 reflectIn (List.zipWith (· ^^^ ·) m e) seed = crc8 reflectIn m seed ^^^ crc8 reflectIn e 0

/-- 10_state.md R21: only CRC_SEED, CRC_UPDATE and Reset write `S.crc`; and a step on any event that is no CRC command and
no Reset does the same whatever `S.crc` holds, so the frame codec does not read it (40_crc.md R128). -/
def Obligations.CrcRegisterIsTheHostsAlone : Prop :=
  (∀ s t : State, step s = .next t →
    t.crc = s.crc ∨
    (∃ rest, s.events = .reset :: rest ∧ t.crc = 0) ∨
    (∃ w rest b, s.events = .cmd w :: rest ∧ s.phase = .idle ∧
      ((decode w = .cmd (.crcSeed b) ∧ t.crc = b) ∨
       (decode w = .cmd (.crcUpdate b) ∧ t.crc = crcByte s.cfg.crcReflectIn s.crc b)))) ∧
  (∀ (s t : State) (c : Byte),
    (∀ w b rest, s.events = .cmd w :: rest → decode w ≠ .cmd (.crcSeed b) ∧ decode w ≠ .cmd (.crcUpdate b)) →
    (∀ rest, s.events ≠ .reset :: rest) →
    step s = .next t → step { s with crc := c } = .next { t with crc := c })

/-! ### The frame codec -/

/-- R87, R88, R61: the bytes of the two frames, in wire order, data big-endian. -/
def Obligations.FramesHaveTheSpecsBytes : Prop :=
  ∀ (c : Config) (a : Reg7) (d : Word32),
    readFrame c a = [c.sync, c.node, a.setWidth 8, crc8 c.crcReflectIn [c.sync, c.node, a.setWidth 8] 0] ∧
    ((readFrame c a).getD 2 0).getLsbD 7 = false ∧
    writeFrame c a d =
      [c.sync, c.node, a.setWidth 8 ||| c.writeBit,
       d.extractLsb' 24 8, d.extractLsb' 16 8, d.extractLsb' 8 8, d.extractLsb' 0 8,
       crc8 c.crcReflectIn
         [c.sync, c.node, a.setWidth 8 ||| c.writeBit,
          d.extractLsb' 24 8, d.extractLsb' 16 8, d.extractLsb' 8 8, d.extractLsb' 0 8] 0]

/-- R90: with the write-bit at bit 7, byte 2 of a frame tells its length. -/
def Obligations.ByteTwoTellsTheFrameLength : Prop :=
  ∀ (c : Config) (a : Reg7) (d : Word32), c.writeBit = 0x80 →
    (readFrame c a).length = 4 ∧ frameLengthFromByte2 c ((readFrame c a).getD 2 0) = 4 ∧
    (writeFrame c a d).length = 8 ∧ frameLengthFromByte2 c ((writeFrame c a d).getD 2 0) = 8

/-- R93, R61, R95: the payload is bytes 7 to 10, the first the most significant, whatever the other bytes hold. -/
def Obligations.ReplyValueIsBytesSevenToTenBigEndian : Prop :=
  ∀ (r : List Byte) (b7 b8 b9 b10 : Byte),
    r[7]? = some b7 → r[8]? = some b8 → r[9]? = some b9 → r[10]? = some b10 →
    (replyValue r).toNat = b7.toNat * 2 ^ 24 + b8.toNat * 2 ^ 16 + b9.toNat * 2 ^ 8 + b10.toNat

/-- R184: the value of READ_INT is the two's-complement value of `resp_data`, that of READ_U32 and READ_REG its unsigned
value. -/
def Obligations.ReadResultsHaveTheirSignedness : Prop :=
  ∀ d : Word32,
    (resultValue .readInt d = if d.toNat < 2 ^ 31 then (d.toNat : Int) else (d.toNat : Int) - 2 ^ 32) ∧
    resultValue .readU32 d = d.toNat ∧ resultValue .readReg d = d.toNat

/-! ### The RX sync unit -/

/-- R146 (which the spec marks as derived from R145): over the bytes received while it is armed, the unit fills exactly when some sync byte has eleven bytes after
it, and then holds the twelve bytes from the earliest sync byte on; how the bytes are grouped makes no difference. -/
def Obligations.RxUnitHoldsTheEarliestSyncWindow : Prop :=
  ∀ (s : State) (bs : List Byte), s.rx = .hunt → s.rxBuf = [] →
    ((rxReceive bs s).rx = .full ↔ ∃ i : Nat, bs[i]? = some s.cfg.sync ∧ i + 12 ≤ bs.length) ∧
    ((rxReceive bs s).rx = .full →
      ∃ i0 : Nat, bs[i0]? = some s.cfg.sync ∧ (∀ j, j < i0 → bs[j]? ≠ some s.cfg.sync) ∧
        (rxReceive bs s).rxBuf = (bs.drop i0).take 12) ∧
    (∀ as : List Byte, rxReceive (bs ++ as) s = rxReceive as (rxReceive bs s))

/-- R269: bytes that arrive while the unit is OFF are lost; it is OFF exactly in IDLE, in BACKOFF and during a Write
frame. -/
def Obligations.BytesOutsideAnArmedWindowAreLost : Prop :=
  ∀ s : State, Inv s →
    (s.rx = .off ↔ s.phase = .idle ∨ s.phase = .backoff ∨ (s.phase = .tx ∧ s.kind = .write)) ∧
    (s.rx = .off → ∀ (b : Byte) (rest : List Event), s.events = .rxByte b :: rest →
      step s = .next { s with events := rest })

/-- R157: the CRC byte of a reply decides nothing but `crc_acc`, `resp_crc_ok` and the Diag record. With any other CRC byte
the step ends in the same state but for these: where the byte arrives in CAPTURE and completes the reply (then the step
captures it, and a mismatch clears `crc_acc` and leaves one record), and where the whole reply came before CAPTURE (that
such a reply is taken is 92_eei_decisions.md D12). -/
def Obligations.ReplyCrcByteNeverChangesTheOutcome : Prop :=
  (∀ (s t : State) (b b' : Byte) (rest : List Event), Inv s → s.phase = .capture → s.rxBuf.length = 11 →
    s.events = .rxByte b :: rest → step s = .next t →
    t.crcAcc = (s.crcAcc && replyCrcOk s.cfg (s.rxBuf ++ [b])) ∧
    t.diag = s.diag ++ diagRecords s.cfg s.curAddr (s.rxBuf ++ [b]) ∧
    ∃ t', step { s with events := .rxByte b' :: rest } = .next t' ∧
      { t with crcAcc := true, respCrcOk := true, diag := [] } =
        { t' with crcAcc := true, respCrcOk := true, diag := [] }) ∧
  (∀ (s t : State) (b' : Byte), Inv s → s.rx = .full → step s = .next t →
    ∃ t', step { s with rxBuf := s.rxBuf.set 11 b' } = .next t' ∧
      { t with crcAcc := true, respCrcOk := true, diag := [], rxBuf := t.rxBuf.set 11 0 } =
        { t' with crcAcc := true, respCrcOk := true, diag := [], rxBuf := t'.rxBuf.set 11 0 })

/-! ### The transport commands, as they are accepted -/

/-- R181 to R183, R155: a read command presented in IDLE is latched and starts its first attempt: the RX unit is armed and
the Read frame stands on the TX port; READ_REG makes 1 attempt, READ_INT and READ_U32 up to `P_MAX_TRIES`. -/
def Obligations.ReadCommandsStartTheirFirstAttempt : Prop :=
  ∀ (s : State) (a8 : Byte), s.phase = .idle →
    let started (op : TransportOp) (n : Nat) : State := { s with
      respValid := false, crcAcc := true, op := op, addr := a8.extractLsb' 0 7, data := 0
      stage := .main, kind := .read, curAddr := a8.extractLsb' 0 7, limit := n, attempt := 1
      rx := .hunt, rxBuf := [], txFrame := readFrame s.cfg (a8.extractLsb' 0 7), txIdx := 0
      phase := .tx, timer := 0 }
    exec (.readReg a8) s = .next (started .readReg 1) ∧
    exec (.readInt a8) s = .next (started .readInt s.cfg.maxTries) ∧
    exec (.readU32 a8) s = .next (started .readU32 s.cfg.maxTries)

/-- R200, R155: WRITE_REG presented in IDLE is latched and puts its Write frame on the TX port, with the RX unit off. -/
def Obligations.WriteRegStartsItsFrame : Prop :=
  ∀ (s : State) (a8 : Byte) (d : Word32), s.phase = .idle →
    exec (.writeReg a8 d) s = .next { s with
      respValid := false, crcAcc := true, op := .writeReg, addr := a8.extractLsb' 0 7, data := d
      stage := .main, kind := .write, rx := .off, rxBuf := []
      txFrame := writeFrame s.cfg (a8.extractLsb' 0 7) d, txIdx := 0, phase := .tx, timer := 0 }

/-- R202, R155: WRITE_CHECKED presented in IDLE is latched and starts to read the write-counter, with `P_CHK_TRIES`
attempts. -/
def Obligations.WriteCheckedStartsWithTheCounter : Prop :=
  ∀ (s : State) (a8 : Byte) (d : Word32), s.phase = .idle →
    exec (.writeChecked a8 d) s = .next { s with
      respValid := false, crcAcc := true, op := .writeChecked, addr := a8.extractLsb' 0 7, data := d
      stage := .before, kind := .read, curAddr := s.cfg.ifcntAddr, limit := s.cfg.chkTries, attempt := 1
      rx := .hunt, rxBuf := [], txFrame := readFrame s.cfg s.cfg.ifcntAddr, txIdx := 0
      phase := .tx, timer := 0 }

/-! ### The transport commands, to their end -/

/-- R181, R152, R157: a READ_REG whose frame is accepted in time and to which a reply comes in time (after noise without a
sync byte, if any) completes with the reply's payload, whatever its CRC and whatever its bytes 1 to 6 (R95, a decision of the
spec: 92_eei_decisions.md D33). The bytes may come in TX and PAUSE too (R151; 92_eei_decisions.md D12), and with ticks of
CAPTURE between them. `resp_crc_ok` and the Diag record tell the CRC check's result. -/
def Obligations.ReadRegReturnsTheReply : Prop :=
  ∀ (s : State) (a8 : Byte) (answer : Answer) (noise r : List Byte), Inv s → s.phase = .idle → a8.getLsbD 7 = false →
    answer.Brings s.cfg noise r →
    ∃ t, after (.cmd (encode (.readReg a8)) :: answer.events s.cfg) s = .next t ∧
      t.phase = .idle ∧ t.respValid = true ∧ t.respStatus = 0 ∧ t.respData = replyValue r ∧
      t.respCrcOk = replyCrcOk s.cfg r ∧ t.wire = s.wire ++ readFrame s.cfg (a8.extractLsb' 0 7) ∧
      t.diag = s.diag ++ diagRecords s.cfg (a8.extractLsb' 0 7) r ∧ t.crc = s.crc

/-- R152, R180, R203: the step in which a reply is captured, with all it leaves, in every read sub-transaction: a read
command completes with status OK and the payload, WRITE_CHECKED goes from its first counter read to the write, and
completes after its second with status OK and 1 exactly if byte 10 differs. That step is the reply's last byte where it
comes in CAPTURE, at any time; the tick that ends PAUSE, or without a pause the acceptance of the frame's last byte, where
the whole reply came before CAPTURE, which is then taken at once (92_eei_decisions.md D12). A reply is captured whatever
its bytes 1 to 6 (92_eei_decisions.md D33). Before CAPTURE a byte does nothing but what the RX sync unit does with it. -/
def Obligations.CapturedReplyEndsTheSubTransaction : Prop :=
  ∀ (s : State) (rest : List Event), Inv s → s.phase ≠ .idle → s.kind = .read →
    let captured (r : List Byte) : State := { s with
      events := rest, rx := .off, rxBuf := [], crcAcc := s.crcAcc && replyCrcOk s.cfg r
      diag := s.diag ++ diagRecords s.cfg s.curAddr r }
    let finished (r : List Byte) (d : Word32) : State := { captured r with
      respValid := true, respStatus := 0, respData := d, respCrcOk := s.crcAcc && replyCrcOk s.cfg r
      phase := .idle, txFrame := [], txIdx := 0, timer := 0 }
    let ended (r : List Byte) : State :=
      if s.op ≠ .writeChecked then finished r (replyValue r)
      else if s.stage = .before then { captured r with
        before := r.getD 10 0, stage := .write, kind := .write
        txFrame := writeFrame s.cfg s.addr s.data, txIdx := 0, phase := .tx, timer := 0 }
      else finished r (if s.before = r.getD 10 0 then 0 else 1)
    (∀ b : Byte, s.phase = .capture → s.rxBuf.length = 11 → s.events = .rxByte b :: rest →
      step s = .next (ended (s.rxBuf ++ [b]))) ∧
    (s.phase = .pause → s.rx = .full → s.timer + 1 = s.cfg.tPause → s.events = .tick :: rest →
      step s = .next (ended s.rxBuf)) ∧
    (∀ b : Byte, s.phase = .tx → s.rx = .full → s.txIdx + 1 = s.txFrame.length → s.txFrame[s.txIdx]? = some b →
      s.cfg.tPause = 0 → s.events = .txAccept :: rest →
      step s = .next { ended s.rxBuf with wire := s.wire ++ [b] }) ∧
    (∀ b : Byte, s.phase = .tx ∨ s.phase = .pause → s.events = .rxByte b :: rest →
      step s = .next (onRx b { s with events := rest }))

/-- R182, R183, R153, R154: after any number of failed attempts, with attempts left, READ_INT and READ_U32 take the reply of
the next attempt and its value alone, whatever its bytes 1 to 6 (92_eei_decisions.md D33). An attempt fails by a short write
of its Read frame or by bytes that hold no whole reply; the wire holds the failed attempts' frames, each whole or cut short
(R153; log entry 11), and then the whole Read frame. Bytes of the reply may come in TX and PAUSE (92_eei_decisions.md D12). -/
def Obligations.RetriedReadReturnsTheLastReply : Prop :=
  ∀ (s : State) (a8 : Byte) (fs : List FailedAttempt) (answer : Answer) (noise r : List Byte) (i : Instr),
    Inv s → s.phase = .idle → a8.getLsbD 7 = false → (i = .readInt a8 ∨ i = .readU32 a8) →
    fs.length < s.cfg.maxTries → (∀ f ∈ fs, f.Fails s.cfg) → answer.Brings s.cfg noise r →
    ∃ t, after (.cmd (encode i) :: retries s.cfg fs ++ answer.events s.cfg) s = .next t ∧
      t.phase = .idle ∧ t.respValid = true ∧ t.respStatus = 0 ∧ t.respData = replyValue r ∧
      t.respCrcOk = replyCrcOk s.cfg r ∧
      t.wire = s.wire ++ cutCopies (readFrame s.cfg (a8.extractLsb' 0 7)) (fs.map FailedAttempt.sent) ++
        readFrame s.cfg (a8.extractLsb' 0 7) ∧
      t.diag = s.diag ++ diagRecords s.cfg (a8.extractLsb' 0 7) r ∧ t.crc = s.crc

/-- R149, R151, R153, R154: what a tick does in a read sub-transaction, whatever came before. Below the limit of its phase
it only counts, in PAUSE with a full buffer too, so the pause is served in full (R272); the tick that ends PAUSE without a
whole reply enters CAPTURE. The tick that reaches the limit of TX or CAPTURE fails the attempt. With attempts left the
block backs off, with the RX unit disarmed, or without a pause starts the next attempt at once; after the last attempt a
read command completes with TransportTimeout and data 0, and WRITE_CHECKED with status OK and data 0, in its first counter
read with no Write frame sent (92_eei_decisions.md D18). The tick that ends BACKOFF starts the next attempt, with the same
Read frame and the RX unit armed. -/
def Obligations.FailedAttemptIsRetriedOrEnds : Prop :=
  ∀ (s : State) (rest : List Event), Inv s → s.kind = .read → s.events = .tick :: rest →
    let failed : State := { s with events := rest, attempt := s.attempt + 1, rx := .off, rxBuf := [], phase := .backoff, timer := 0 }
    let started (u : State) : State := { u with
      events := rest, rx := .hunt, rxBuf := [], txFrame := readFrame s.cfg s.curAddr, txIdx := 0, phase := .tx, timer := 0 }
    ((s.phase = .tx ∧ s.timer + 1 = s.cfg.tTx) ∨ (s.phase = .capture ∧ s.timer + 1 = s.cfg.tCapture) →
      (s.attempt < s.limit → step s = .next (if s.cfg.tPause = 0 then started failed else failed)) ∧
      (¬ s.attempt < s.limit → step s = .next { s with
        events := rest
        respValid := true, respStatus := (if s.op = .writeChecked then 0 else 1), respData := 0, respCrcOk := s.crcAcc
        phase := .idle, rx := .off, rxBuf := [], txFrame := [], txIdx := 0, timer := 0 })) ∧
    (s.phase = .backoff → s.timer + 1 = s.cfg.tPause → step s = .next (started s)) ∧
    ((s.phase = .tx ∧ s.timer + 1 < s.cfg.tTx) ∨ (s.phase = .capture ∧ s.timer + 1 < s.cfg.tCapture) ∨
        ((s.phase = .pause ∨ s.phase = .backoff) ∧ s.timer + 1 < s.cfg.tPause) →
      step s = .next { s with events := rest, timer := s.timer + 1 }) ∧
    (s.phase = .pause → s.rx ≠ .full → s.timer + 1 = s.cfg.tPause →
      step s = .next { s with events := rest, phase := .capture, timer := 0 })

/-- R231, R153, R180: a read command all of whose attempts fail, each by a short write or by bytes that hold no whole reply,
completes with TransportTimeout and data 0 when its last attempt times out, with no pause after it; READ_REG has one attempt.
The wire holds the attempts' frames, each whole or cut short (log entry 11). -/
def Obligations.UnansweredReadTimesOut : Prop :=
  ∀ (s : State) (a8 : Byte) (i : Instr) (n : Nat) (fs : List FailedAttempt) (last : FailedAttempt),
    Inv s → s.phase = .idle → a8.getLsbD 7 = false →
    ((i = .readReg a8 ∧ n = 1) ∨ (i = .readInt a8 ∧ n = s.cfg.maxTries) ∨ (i = .readU32 a8 ∧ n = s.cfg.maxTries)) →
    fs.length + 1 = n → (∀ f ∈ fs, f.Fails s.cfg) → last.Fails s.cfg →
    ∃ t, after (.cmd (encode i) :: failedRead s.cfg fs last) s = .next t ∧
      t.phase = .idle ∧ t.respValid = true ∧ t.respStatus = 1 ∧ t.respData = 0 ∧ t.respCrcOk = true ∧
      t.wire = s.wire ++ cutCopies (readFrame s.cfg (a8.extractLsb' 0 7)) ((fs ++ [last]).map FailedAttempt.sent) ∧
      t.diag = s.diag ∧ t.crc = s.crc

/-- R158, R153: bytes that do not hold a whole reply never become data: a READ_REG that receives only such bytes in
CAPTURE completes with TransportTimeout and data 0. -/
def Obligations.PartialReplyNeverBecomesData : Prop :=
  ∀ (s : State) (a8 : Byte) (bs : List Byte), Inv s → s.phase = .idle → a8.getLsbD 7 = false →
    NoWholeReply s.cfg bs →
    ∃ t, after (.cmd (encode (.readReg a8)) ::
        accepts 4 ++ ticks s.cfg.tPause ++ receives bs ++ ticks s.cfg.tCapture) s = .next t ∧
      t.phase = .idle ∧ t.respValid = true ∧ t.respStatus = 1 ∧ t.respData = 0 ∧ t.respCrcOk = true ∧ t.diag = s.diag

/-- R181, R231: a READ_REG whose frame is not accepted in time sends a prefix of it and completes with TransportTimeout. -/
def Obligations.ShortReadFrameTimesOut : Prop :=
  ∀ (s : State) (a8 : Byte) (k : Nat), Inv s → s.phase = .idle → a8.getLsbD 7 = false → k < 4 →
    ∃ t, after (.cmd (encode (.readReg a8)) :: accepts k ++ ticks s.cfg.tTx) s = .next t ∧
      t.phase = .idle ∧ t.respValid = true ∧ t.respStatus = 1 ∧ t.respData = 0 ∧ t.respCrcOk = true ∧
      t.wire = s.wire ++ (readFrame s.cfg (a8.extractLsb' 0 7)).take k ∧ t.diag = s.diag ∧ t.crc = s.crc

/-- R200, R201, R273: a WRITE_REG whose eight bytes are accepted before `P_T_TX` ticks have passed, with the ticks
anywhere among them or none, completes with status OK and data 0; one of whose frame fewer than eight bytes are accepted
when `P_T_TX` ticks have passed completes with TransportTimeout. Bytes received meanwhile are lost. -/
def Obligations.WriteRegCompletesOrTimesOut : Prop :=
  ∀ (s : State) (a8 : Byte) (d : Word32) (evs : List Event), Inv s → s.phase = .idle → a8.getLsbD 7 = false →
    (WholeWrite s.cfg evs → ∃ t, after (.cmd (encode (.writeReg a8 d)) :: evs) s = .next t ∧
      t.phase = .idle ∧ t.respValid = true ∧ t.respStatus = 0 ∧ t.respData = 0 ∧ t.respCrcOk = true ∧
      t.wire = s.wire ++ writeFrame s.cfg (a8.extractLsb' 0 7) d ∧ t.diag = s.diag ∧ t.crc = s.crc) ∧
    (∀ k, ShortWrite s.cfg k evs → ∃ t, after (.cmd (encode (.writeReg a8 d)) :: evs) s = .next t ∧
      t.phase = .idle ∧ t.respValid = true ∧ t.respStatus = 1 ∧ t.respData = 0 ∧ t.respCrcOk = true ∧
      t.wire = s.wire ++ (writeFrame s.cfg (a8.extractLsb' 0 7) d).take k ∧ t.diag = s.diag ∧ t.crc = s.crc)

/-- R147, R149, R150, R153, R201, R203: what a `TxAccept` and a tick do while a Write frame is sent, whatever the timer
holds. A byte accepted before the last goes out; the last one ends the sub-transaction: WRITE_REG completes with status OK
and data 0, WRITE_CHECKED goes on at once to its second counter read. A tick before the limit only counts; the tick that
reaches `P_T_TX` ends the command: WRITE_REG with TransportTimeout and data 0, WRITE_CHECKED with status OK and data 0 and
no second counter read (92_eei_decisions.md D18). -/
def Obligations.WriteFrameIsSentOrTimesOut : Prop :=
  ∀ (s : State) (rest : List Event), Inv s → s.phase = .tx → s.kind = .write →
    let finished (st : BitVec 2) (u : State) : State := { u with
      respValid := true, respStatus := st, respData := 0, respCrcOk := s.crcAcc
      phase := .idle, rx := .off, rxBuf := [], txFrame := [], txIdx := 0, timer := 0 }
    (∀ b : Byte, s.events = .txAccept :: rest → s.txFrame[s.txIdx]? = some b →
      let sent : State := { s with events := rest, wire := s.wire ++ [b] }
      (s.txIdx + 1 < 8 → step s = .next { sent with txIdx := s.txIdx + 1 }) ∧
      (s.txIdx + 1 = 8 → s.op = .writeReg → step s = .next (finished 0 sent)) ∧
      (s.txIdx + 1 = 8 → s.op = .writeChecked → step s = .next { sent with
        stage := .after, kind := .read, curAddr := s.cfg.ifcntAddr, limit := s.cfg.chkTries, attempt := 1
        rx := .hunt, rxBuf := [], txFrame := readFrame s.cfg s.cfg.ifcntAddr, txIdx := 0, timer := 0 })) ∧
    (s.events = .tick :: rest →
      (s.timer + 1 < s.cfg.tTx → step s = .next { s with events := rest, timer := s.timer + 1 }) ∧
      (s.timer + 1 = s.cfg.tTx → s.op = .writeReg → step s = .next (finished 1 { s with events := rest })) ∧
      (s.timer + 1 = s.cfg.tTx → s.op = .writeChecked → step s = .next (finished 0 { s with events := rest })))

/-- R202, R203, R204: a WRITE_CHECKED whose counter reads are both answered, each after any number of failed attempts with
attempts left, and whose Write frame is accepted in time, with ticks anywhere among its bytes or none, completes with
status OK and data 1 exactly if byte 10 of the two replies (bits [7:0] of the counter) differs, whatever the replies'
bytes 1 to 6 (92_eei_decisions.md D33); bytes of a reply may come in TX and PAUSE (92_eei_decisions.md D12). The wire
holds the counter reads' frames, those of failed attempts each whole or cut short (log entry 11), around the Write
frame. -/
def Obligations.WriteCheckedComparesTheCounter : Prop :=
  ∀ (s : State) (a8 : Byte) (d : Word32) (fs1 fs2 : List FailedAttempt) (answer1 answer2 : Answer)
    (write : List Event) (n1 r1 n2 r2 : List Byte), Inv s → s.phase = .idle → a8.getLsbD 7 = false →
    fs1.length < s.cfg.chkTries → (∀ f ∈ fs1, f.Fails s.cfg) → answer1.Brings s.cfg n1 r1 →
    fs2.length < s.cfg.chkTries → (∀ f ∈ fs2, f.Fails s.cfg) → answer2.Brings s.cfg n2 r2 →
    WholeWrite s.cfg write →
    let counter := readFrame s.cfg s.cfg.ifcntAddr
    ∃ t, after (.cmd (encode (.writeChecked a8 d)) ::
        retries s.cfg fs1 ++ answer1.events s.cfg ++ write ++ retries s.cfg fs2 ++ answer2.events s.cfg) s = .next t ∧
      t.phase = .idle ∧ t.respValid = true ∧ t.respStatus = 0 ∧
      t.respData = (if r1[10]? = r2[10]? then 0 else 1) ∧
      t.respCrcOk = (replyCrcOk s.cfg r1 && replyCrcOk s.cfg r2) ∧
      t.wire = s.wire ++ cutCopies counter (fs1.map FailedAttempt.sent) ++ counter ++
        writeFrame s.cfg (a8.extractLsb' 0 7) d ++ cutCopies counter (fs2.map FailedAttempt.sent) ++ counter ∧
      t.diag = s.diag ++ diagRecords s.cfg s.cfg.ifcntAddr r1 ++ diagRecords s.cfg s.cfg.ifcntAddr r2 ∧
      t.crc = s.crc

/-- R203: a WRITE_CHECKED that cannot read the counter first, whose write is short, or that cannot read the counter again,
completes with status OK and data 0. A counter read that fails fails by short writes or by bytes that hold no whole reply,
in all its attempts; one that is answered may have failed attempts before. The line accepts bytes of the Write frame among
the ticks in any order. In the first case no Write frame is sent, in the second no further read: the spec's own choice
(92_eei_decisions.md D18, flagged in 93_implementation_defined.md §3; the answered reads rest on D12 and D33, the cut
frames on log entry 11). -/
def Obligations.WriteCheckedTurnsFailureIntoFalse : Prop :=
  ∀ (s : State) (a8 : Byte) (d : Word32) (fs gs : List FailedAttempt) (last : FailedAttempt) (answer : Answer)
    (write : List Event) (n1 r1 : List Byte), Inv s → s.phase = .idle → a8.getLsbD 7 = false →
    fs.length < s.cfg.chkTries → (∀ f ∈ fs, f.Fails s.cfg) → answer.Brings s.cfg n1 r1 →
    gs.length + 1 = s.cfg.chkTries → (∀ f ∈ gs, f.Fails s.cfg) → last.Fails s.cfg →
    let cmd : Event := .cmd (encode (.writeChecked a8 d))
    let counter := readFrame s.cfg s.cfg.ifcntAddr
    let answered := retries s.cfg fs ++ answer.events s.cfg
    let answeredReads := cutCopies counter (fs.map FailedAttempt.sent) ++ counter
    let failedReads := cutCopies counter ((gs ++ [last]).map FailedAttempt.sent)
    let frame := writeFrame s.cfg (a8.extractLsb' 0 7) d
    let isFalse (t : State) : Prop := t.phase = .idle ∧ t.respValid = true ∧ t.respStatus = 0 ∧ t.respData = 0
    (∃ t, after (cmd :: failedRead s.cfg gs last) s = .next t ∧ isFalse t ∧ t.wire = s.wire ++ failedReads) ∧
    (∀ k, ShortWrite s.cfg k write → ∃ t, after (cmd :: answered ++ write) s = .next t ∧
      isFalse t ∧ t.wire = s.wire ++ answeredReads ++ frame.take k) ∧
    (WholeWrite s.cfg write → ∃ t, after (cmd :: answered ++ write ++ failedRead s.cfg gs last) s = .next t ∧
      isFalse t ∧ t.wire = s.wire ++ answeredReads ++ frame ++ failedReads)

/-- R202: a WRITE_CHECKED that ends by itself ends with status OK and one bit of data, whatever happens on the line. -/
def Obligations.WriteCheckedAlwaysEndsWithABit : Prop :=
  ∀ s t : State, Inv s → s.phase ≠ .idle → s.op = .writeChecked → (∀ rest, s.events ≠ .reset :: rest) →
    step s = .next t → t.phase = .idle →
    t.respValid = true ∧ t.respStatus = 0 ∧ (t.respData = 0 ∨ t.respData = 1)

/-- R204: the predicate is 1 exactly if the counter advanced modulo 256 by at least 1, so exactly if it differs; the second
of these the spec marks as derived. -/
def Obligations.VerifiedExactlyIfTheCounterMoved : Prop :=
  ∀ b a : Byte, (verified b a = true ↔ 1 ≤ ((a.toNat : Int) - (b.toNat : Int)) % 256) ∧ (verified b a = true ↔ a ≠ b)

/-! ### The wire and the records -/

/-- R34, R147: a step appends to the wire history nothing, or, on a `TxAccept`, the one byte offered on the TX port, which
is the next byte of the frame being sent. -/
def Obligations.WireGrowsByTheOfferedByte : Prop :=
  ∀ s t : State, step s = .next t →
    ((∀ rest, s.events ≠ .txAccept :: rest) → t.wire = s.wire) ∧
    (∀ rest, s.events = .txAccept :: rest →
      (txValid s = true → ∃ b, s.txFrame[s.txIdx]? = some b ∧ t.wire = s.wire ++ [b]) ∧
      (txValid s = false → t.wire = s.wire))

/-- R181 to R183, R153: whatever the line does, a read command emits at most its number of attempts of its Read frame,
each whole or cut short (in any attempt: log entry 11), and nothing else. -/
def Obligations.ReadCommandsEmitOnlyTheirReadFrame : Prop :=
  ∀ (s t : State) (a8 : Byte) (i : Instr) (n : Nat) (evs : List Event), Inv s → s.phase = .idle →
    a8.getLsbD 7 = false →
    ((i = .readReg a8 ∧ n = 1) ∨ (i = .readInt a8 ∧ n = s.cfg.maxTries) ∨ (i = .readU32 a8 ∧ n = s.cfg.maxTries)) →
    LineEvents evs → after (.cmd (encode i) :: evs) s = .next t →
    ∃ ks : List Nat, ks.length ≤ n ∧ t.wire = s.wire ++ cutCopies (readFrame s.cfg (a8.extractLsb' 0 7)) ks

/-- R205, R202, R69: whatever the line does, WRITE_REG emits its Write frame at most once, whole or cut short; and
WRITE_CHECKED emits at most `P_CHK_TRIES` Read frames of the counter, then its Write frame at most once, then, only if that
frame was whole (92_eei_decisions.md D18), at most `P_CHK_TRIES` Read frames of the counter. Each of these frames may be cut
short, in any attempt (log entry 11). -/
def Obligations.WriteFrameIsSentAtMostOnce : Prop :=
  ∀ (s t : State) (a8 : Byte) (d : Word32) (evs : List Event), Inv s → s.phase = .idle → a8.getLsbD 7 = false →
    LineEvents evs →
    (after (.cmd (encode (.writeReg a8 d)) :: evs) s = .next t →
      ∃ k, k ≤ 8 ∧ t.wire = s.wire ++ (writeFrame s.cfg (a8.extractLsb' 0 7) d).take k) ∧
    (after (.cmd (encode (.writeChecked a8 d)) :: evs) s = .next t →
      ∃ (ks1 ks2 : List Nat) (k : Nat), ks1.length ≤ s.cfg.chkTries ∧ ks2.length ≤ s.cfg.chkTries ∧ k ≤ 8 ∧
        (k < 8 → ks2 = []) ∧
        t.wire = s.wire ++ cutCopies (readFrame s.cfg s.cfg.ifcntAddr) ks1 ++
          (writeFrame s.cfg (a8.extractLsb' 0 7) d).take k ++ cutCopies (readFrame s.cfg s.cfg.ifcntAddr) ks2)

/-- R94, R152, R233, R34: the CRC check of a reply compares its byte 11 with the CRC, from seed 0, of its bytes from
`P_REPLY_CRC_FROM` (0 or 4) to 10; a mismatch has one record, of the register read, that CRC and byte 11. A step that
captures a reply (an early one among them, 92_eei_decisions.md D12, and whatever its bytes 1 to 6, D33) appends that
record and raises the pulse `diag_crc_mismatch` with it, and clears `crc_acc`, if the check fails; if it holds, the
records and `crc_acc` stay and there is no pulse. A step that captures none appends none and raises none. -/
def Obligations.DiagGrowsByFailedCrcChecks : Prop :=
  (∀ (c : Config) (a : Reg7) (b0 b1 b2 b3 b4 b5 b6 b7 b8 b9 b10 b11 : Byte), c.replyCrcFrom = 0 ∨ c.replyCrcFrom = 4 →
    let r := [b0, b1, b2, b3, b4, b5, b6, b7, b8, b9, b10, b11]
    let computed := crc8 c.crcReflectIn
      (if c.replyCrcFrom = 0 then [b0, b1, b2, b3, b4, b5, b6, b7, b8, b9, b10] else [b4, b5, b6, b7, b8, b9, b10]) 0
    (replyCrcOk c r = true ↔ computed = b11) ∧
    diagRecords c a r = (if computed = b11 then [] else [⟨a, computed, b11⟩])) ∧
  (∀ s t : State, Inv s → step s = .next t →
    (∀ (r : List Byte) (received : Byte), Captures s r → r[11]? = some received →
      let computed := crc8 s.cfg.crcReflectIn ((r.take 11).drop s.cfg.replyCrcFrom) 0
      (computed = received → t.diag = s.diag ∧ diagCrcMismatch s t = none ∧ t.crcAcc = s.crcAcc) ∧
      (computed ≠ received →
        t.diag = s.diag ++ [⟨s.curAddr, computed, received⟩] ∧
        diagCrcMismatch s t = some ⟨s.curAddr, computed, received⟩ ∧ t.crcAcc = false)) ∧
    (∀ r : List Byte, Captures s r → r.length = 12) ∧
    ((∀ r : List Byte, ¬ Captures s r) → t.diag = s.diag ∧ diagCrcMismatch s t = none))

/-! ### The response -/

/-- R33: but for Reset, the response registers are written only when a command is accepted, which clears `resp_valid`
and leaves the others, or when one finishes, which sets `resp_valid` and takes `resp_crc_ok` from `crc_acc`. -/
def Obligations.ResponseWrittenOnlyAtAcceptAndFinish : Prop :=
  ∀ s t : State, Inv s → (∀ rest, s.events ≠ .reset :: rest) → step s = .next t →
    (t.respValid = s.respValid ∧ t.respStatus = s.respStatus ∧ t.respData = s.respData ∧ t.respCrcOk = s.respCrcOk) ∨
    (s.phase = .idle ∧ t.phase ≠ .idle ∧ (∃ w rest, s.events = .cmd w :: rest) ∧
      t.respValid = false ∧ t.respStatus = s.respStatus ∧ t.respData = s.respData ∧ t.respCrcOk = s.respCrcOk) ∨
    (t.phase = .idle ∧ (s.phase ≠ .idle ∨ ∃ w rest, s.events = .cmd w :: rest) ∧
      t.respValid = true ∧ t.respCrcOk = t.crcAcc)

/-- R265, R36: a read of `resp_data` is refused while a command runs, and whenever `resp_valid` is 0; while it is 1 the
read gives `resp_data`. The fields of the status view are `cmd_ready`, which is 1 exactly in IDLE (R35), `resp_valid`,
`resp_status`, `resp_crc_ok` and `crc_out` as they stand, and `resp_data`, with no value exactly while `resp_valid` is
0. -/
def Obligations.ResponseReadIsRefusedWithoutAResponse : Prop :=
  ∀ s : State,
    (Inv s → s.phase ≠ .idle → hostReadRespData s = .error .responseNotValid) ∧
    (s.respValid = false → hostReadRespData s = .error .responseNotValid ∧ (statusView s).respData = none) ∧
    (s.respValid = true → hostReadRespData s = .ok s.respData ∧ (statusView s).respData = some s.respData) ∧
    ((statusView s).cmdReady = true ↔ s.phase = .idle) ∧ (statusView s).respValid = s.respValid ∧
    (statusView s).respStatus = s.respStatus ∧ (statusView s).respCrcOk = s.respCrcOk ∧ (statusView s).crcOut = s.crc

/-! ### Time -/

/-- R159 (which the spec marks as derived from R148 and R149): at the end of every step the timer is below the limit of its phase, so a timer of
`ceil(log2(max(P_T_TX, P_T_PAUSE, P_T_CAPTURE) + 1))` bits never overflows. -/
def Obligations.TimerStaysBelowItsLimit : Prop :=
  ∀ s t : State, Inv s → step s = .next t →
    (t.phase = .tx → t.timer < t.cfg.tTx) ∧
    (t.phase = .pause ∨ t.phase = .backoff → t.timer < t.cfg.tPause) ∧
    (t.phase = .capture → t.timer < t.cfg.tCapture) ∧
    t.timer < 2 ^ Nat.clog 2 (max (max t.cfg.tTx t.cfg.tPause) t.cfg.tCapture + 1)

/-- R244: in IDLE a tick, an RX byte and a `TxAccept` have no effect; nothing happens until a `Cmd` or `Reset` event. -/
def Obligations.IdleBlockIgnoresTheLine : Prop :=
  ∀ (s : State) (ev : Event) (rest : List Event), Inv s → s.phase = .idle → s.events = ev :: rest →
    (ev = .tick ∨ ev = .txAccept ∨ ∃ b, ev = .rxByte b) → step s = .next { s with events := rest }

/-- R272, R273, R270: a command is finished, with a response, once the ticks of its bound have passed, wherever they fall
among the other events of the line. -/
def Obligations.CommandsFinishWithinTheirTickBound : Prop :=
  ∀ (s : State) (w : CmdWord) (i : Instr) (evs : List Event), Inv s → s.phase = .idle → decode w = .cmd i →
    LineEvents evs → commandTickBound s.cfg i ≤ tickCount evs →
    ∃ t, after (.cmd w :: evs) s = .next t ∧ t.phase = .idle ∧ t.respValid = true

/-- R270, 93_implementation_defined.md U13: without ticks, a command stays in TX while the line accepts only some of the
rest of its frame, in CAPTURE while the bytes received do not complete its reply, and in PAUSE or BACKOFF whatever
happens, however long the run; the accepted bytes go out, the received ones go to the RX sync unit, which is armed in TX
and PAUSE too (92_eei_decisions.md D12), and a presented command is held throughout. -/
def Obligations.WithoutTicksTheBlockHangs : Prop :=
  ∀ (s : State) (evs : List Event), Inv s → s.phase ≠ .idle → (∀ e ∈ evs, e ≠ .tick ∧ e ≠ .reset) →
    (s.phase = .tx → s.txIdx + evs.count .txAccept < s.txFrame.length) →
    (s.phase = .capture → (rxReceive (receivedBytes evs) s).rx ≠ .full) →
    ∃ t, after evs s = .next t ∧ t.phase = s.phase ∧ t.timer = s.timer ∧ t.attempt = s.attempt ∧ t.respValid = false ∧
      t.wire = s.wire ++ (if s.phase = .tx then (s.txFrame.drop s.txIdx).take (evs.count .txAccept) else []) ∧
      t.rx = (rxReceive (receivedBytes evs) s).rx ∧ t.rxBuf = (rxReceive (receivedBytes evs) s).rxBuf

/-- R235, R141, R148: events of one clock act in the order RxByte, TxAccept, Tick, so what completes in the clock of its
deadline completes, and the clock's tick acts on the state after it. A reply whose last byte arrives with the capture's last
tick is captured, in a read command and in both counter reads of WRITE_CHECKED; a frame whose last byte is accepted with the
last tick of TX is sent, be it a Read frame of any attempt or a Write frame. A reply is captured whatever its bytes 1 to 6
(92_eei_decisions.md D33); without a pause, one that came whole in TX is taken when its Read frame is sent
(92_eei_decisions.md D12). -/
def Obligations.CompletionBeatsTheDeadline : Prop :=
  ∀ s : State, Inv s →
    (∀ b : Byte, s.phase = .capture → s.rxBuf.length = 11 → s.timer + 1 = s.cfg.tCapture →
      ∃ u, after [.rxByte b] s = .next u ∧
        after (serialise ⟨false, some b, false, true, none⟩) s = after [.tick] u ∧
        (u.phase = .idle → after (serialise ⟨false, some b, false, true, none⟩) s = .next u) ∧
        (s.op ≠ .writeChecked → u.phase = .idle ∧ u.respStatus = 0 ∧ u.respData = replyValue (s.rxBuf ++ [b])) ∧
        (s.op = .writeChecked → s.stage = .before →
          u.phase = .tx ∧ u.stage = .write ∧ u.before = (s.rxBuf ++ [b]).getD 10 0 ∧
          u.txFrame = writeFrame s.cfg s.addr s.data ∧ u.txIdx = 0 ∧ u.timer = 0) ∧
        (s.op = .writeChecked → s.stage = .after →
          u.phase = .idle ∧ u.respStatus = 0 ∧ u.respData = (if s.before = (s.rxBuf ++ [b]).getD 10 0 then 0 else 1))) ∧
    (s.phase = .tx → s.txIdx + 1 = s.txFrame.length → s.timer + 1 = s.cfg.tTx →
      ∃ u, after [.txAccept] s = .next u ∧
        after (serialise ⟨false, none, true, true, none⟩) s = after [.tick] u ∧
        (u.phase = .idle → after (serialise ⟨false, none, true, true, none⟩) s = .next u) ∧
        (∃ b, s.txFrame[s.txIdx]? = some b ∧ u.wire = s.wire ++ [b]) ∧
        (s.kind = .read → 0 < s.cfg.tPause → u.phase = .pause ∧ u.timer = 0 ∧ u.attempt = s.attempt ∧ u.rx = s.rx) ∧
        (s.kind = .read → s.cfg.tPause = 0 → s.rx ≠ .full →
          u.phase = .capture ∧ u.timer = 0 ∧ u.attempt = s.attempt ∧ u.rx = s.rx) ∧
        (s.kind = .read → s.cfg.tPause = 0 → s.rx = .full → s.op ≠ .writeChecked →
          u.phase = .idle ∧ u.respStatus = 0 ∧ u.respData = replyValue s.rxBuf) ∧
        (s.kind = .read → s.cfg.tPause = 0 → s.rx = .full → s.op = .writeChecked → s.stage = .before →
          u.phase = .tx ∧ u.stage = .write ∧ u.before = s.rxBuf.getD 10 0) ∧
        (s.kind = .read → s.cfg.tPause = 0 → s.rx = .full → s.op = .writeChecked → s.stage = .after →
          u.phase = .idle ∧ u.respStatus = 0 ∧ u.respData = (if s.before = s.rxBuf.getD 10 0 then 0 else 1)) ∧
        (s.op = .writeReg → u.phase = .idle ∧ u.respStatus = 0) ∧
        (s.op = .writeChecked → s.kind = .write →
          u.phase = .tx ∧ u.stage = .after ∧ u.kind = .read ∧ u.attempt = 1 ∧ u.timer = 0))

/-- R141: the events of one clock, in the order Reset, RxByte, TxAccept, Tick, Cmd. -/
def Obligations.ClockEventsAreSerialisedInOrder : Prop :=
  (∀ (b : Byte) (w : CmdWord), serialise ⟨true, some b, true, true, some w⟩ = [.reset, .rxByte b, .txAccept, .tick, .cmd w]) ∧
  (∀ c : ClockInputs, ∃ b w, (serialise c).Sublist [.reset, .rxByte b, .txAccept, .tick, .cmd w]) ∧
  (∀ (c : ClockInputs) (ev : Event), ev ∈ serialise c ↔
    (ev = .reset ∧ c.reset = true) ∨ (∃ b, ev = .rxByte b ∧ c.rxByte = some b) ∨
    (ev = .txAccept ∧ c.txAccept = true) ∨ (ev = .tick ∧ c.tick = true) ∨ (∃ w, ev = .cmd w ∧ c.cmd = some w))

/-! ### Reset and the invariant -/

/-- R261: the values the spec gives for reset, the port values derived from them, and the read of `resp_data` (which it
gives no value) refused. -/
def Obligations.ResetHasTheSpecsValues : Prop :=
  State.reset.crc = 0x00 ∧ State.reset.phase = .idle ∧ State.reset.txFrame = [] ∧ State.reset.txIdx = 0 ∧
  State.reset.timer = 0 ∧ State.reset.rx = .off ∧ State.reset.rxBuf = [] ∧ State.reset.rxCnt = 0 ∧
  State.reset.crcAcc = true ∧ State.reset.respValid = false ∧ State.reset.respStatus = 0 ∧
  State.reset.respCrcOk = true ∧
  cmdReady State.reset = true ∧ txValid State.reset = false ∧ crcOut State.reset = 0x00 ∧
  hostReadRespData State.reset = .error .responseNotValid

/-- R260, R262, R20: a Reset, in any phase, puts every element at its reset value, abandons a running command without a
response, and leaves the configuration and the observation records. The elements R261 gives no value take the values of
log entry 1, the model's choice; `MeaninglessElementsAreUnobservable` says that these do not matter. -/
def Obligations.ResetAbandonsTheCommand : Prop :=
  ∀ (s : State) (rest : List Event), s.cfg.legal = true → s.events = .reset :: rest →
    step s = .next { State.reset with cfg := s.cfg, wire := s.wire, diag := s.diag, events := rest }

/-- 10_state.md R41 at reset: the reset state satisfies the invariant, under every legal configuration and with any events
to come. -/
def Obligations.ResetSatisfiesTheInvariant : Prop :=
  ∀ (c : Config) (evs : List Event), c.legal = true → Inv { State.reset with cfg := c, events := evs }

/-- 10_state.md R41, 41_transaction.md R159: every step keeps the invariant. -/
def Obligations.EveryStepKeepsTheInvariant : Prop :=
  ∀ s t : State, Inv s → step s = .next t → Inv t

/-- 10_state.md R20: no event changes the configuration. And of the model's own field `events` (log entry 4, the model's
choice, for 00_scope.md R10's "The environment chooses which event comes next"): a step leaves the events to come as they are,
or takes the first of them away and leaves the others. -/
def Obligations.NoEventChangesTheConfiguration : Prop :=
  ∀ s t : State, step s = .next t → t.cfg = s.cfg ∧ (t.events = s.events ∨ ∃ ev, s.events = ev :: t.events)

/-- 10_state.md R22 and 93_implementation_defined.md U10: the machine never reads an element that carries no meaning. Two
states that differ only in such elements (those that R261 gives no reset value among them) step to states that differ only
in such elements, so the values log entry 1 names for them at reset are never seen. -/
def Obligations.MeaninglessElementsAreUnobservable : Prop :=
  ∀ s s' t : State, Inv s → Inv s' → SameMeaning s s' → step s = .next t →
    ∃ t', step s' = .next t' ∧ SameMeaning t t' ∧ statusView t = statusView t' ∧ t.wire = t'.wire ∧ t.diag = t'.diag
end

