-- ==== Sys2Proof/Laws/Config.lean ====
section
/-! SUPPORT. Legality of a configuration as the conditions of 00_scope.md R6. -/

namespace Sys2Proof

/-- The conditions of R6, one by one. -/
theorem Config.legal_iff (c : Config) : c.legal = true ↔
    1 ≤ c.maxTries ∧ c.maxTries ≤ 255 ∧ 1 ≤ c.chkTries ∧ c.chkTries ≤ 255 ∧ 1 ≤ c.tTx ∧ 1 ≤ c.tCapture ∧
    1 ≤ c.tByte ∧ (c.replyCrcFrom = 0 ∨ c.replyCrcFrom = 4) := by
  simp [Config.legal, and_assoc]

/-- The bounds of a legal configuration that the transport relies on. -/
theorem Config.bounds_of_legal {c : Config} (h : c.legal = true) :
    (1 ≤ c.maxTries ∧ c.maxTries ≤ 255) ∧ (1 ≤ c.chkTries ∧ c.chkTries ≤ 255) ∧ 1 ≤ c.tTx ∧ 1 ≤ c.tCapture := by
  have := c.legal_iff.1 h
  omega

end Sys2Proof
end

