-- ==== Sys2Proof/Laws/Crc.lean ====
section
/-! SUPPORT. The CRC-8 step is linear over exclusive or (the shift register of 40_crc.md R120). -/

namespace Sys2Proof.Machine

/-- One iteration, of an exclusive or. -/
theorem crcBit_xor (c c' : Byte) (x y : Bool) : crcBit (c ^^^ c') (x ^^ y) = crcBit c x ^^^ crcBit c' y := by
  have hshift : (c ^^^ c') <<< 1 = (c <<< 1) ^^^ (c' <<< 1) := by
    apply BitVec.eq_of_getLsbD_eq
    intro i hi
    simp only [BitVec.getLsbD_shiftLeft, BitVec.getLsbD_xor]
    cases decide (i < 8) <;> cases decide (i < 1) <;> simp
  unfold crcBit
  rw [hshift, BitVec.getLsbD_xor]
  generalize c <<< 1 = u
  generalize c' <<< 1 = v
  have e1 : (u ^^^ v) ^^^ Config.poly = (u ^^^ Config.poly) ^^^ v := by
    rw [BitVec.xor_assoc, BitVec.xor_comm v, ← BitVec.xor_assoc]
  have e2 : (u ^^^ v) ^^^ Config.poly = u ^^^ (v ^^^ Config.poly) := BitVec.xor_assoc ..
  have e3 : (u ^^^ Config.poly) ^^^ (v ^^^ Config.poly) = u ^^^ v := by
    rw [← BitVec.xor_assoc, ← e1, BitVec.xor_assoc, BitVec.xor_self, BitVec.xor_zero]
  cases c.getLsbD 7 <;> cases c'.getLsbD 7 <;> cases x <;> cases y <;> simp [e3] <;>
    first | exact e1 | exact e2

/-- Any number of iterations, of exclusive ors bit by bit. -/
theorem foldl_crcBit_xor : ∀ (xs ys : List Bool) (c c' : Byte), xs.length = ys.length →
    (List.zipWith (· ^^ ·) xs ys).foldl crcBit (c ^^^ c') = xs.foldl crcBit c ^^^ ys.foldl crcBit c'
  | [], [], _, _, _ => rfl
  | x :: xs, y :: ys, c, c', h => by
    simp only [List.zipWith_cons_cons, List.foldl_cons, crcBit_xor]
    exact foldl_crcBit_xor xs ys _ _ (by simpa using h)
  | [], _ :: _, _, _, h => by simp at h
  | _ :: _, [], _, _, h => by simp at h

/-- The bits of an exclusive or. -/
theorem inputBits_xor (reflectIn : Bool) (b b' : Byte) :
    inputBits reflectIn (b ^^^ b') = List.zipWith (· ^^ ·) (inputBits reflectIn b) (inputBits reflectIn b') := by
  cases reflectIn <;> simp [inputBits]

/-- One byte step, of exclusive ors. -/
theorem crcByte_xor (reflectIn : Bool) (c c' b b' : Byte) :
    crcByte reflectIn (c ^^^ c') (b ^^^ b') = crcByte reflectIn c b ^^^ crcByte reflectIn c' b' := by
  unfold crcByte
  rw [inputBits_xor]
  exact foldl_crcBit_xor _ _ _ _ (by cases reflectIn <;> rfl)

/-- Every frame ends in the check byte of what stands before it (R91, R92). -/
theorem sealFrame_eq (c : Config) (header : List Byte) :
    sealFrame c header = header ++ [crc8 c.crcReflectIn header 0] := rfl

@[simp] theorem readFrame_length (c : Config) (a : Reg7) : (readFrame c a).length = 4 := rfl

@[simp] theorem writeFrame_length (c : Config) (a : Reg7) (d : Word32) : (writeFrame c a d).length = 8 := rfl

end Sys2Proof.Machine
end

