-- ==== Sys2Proof/Laws/Encoding.lean ====
section
/-! SUPPORT. The fields of a word built from its parts (30_encoding.md R80). -/

namespace Sys2Proof

/-- The four fields of `op ++ rsv ++ a ++ d` are its four parts. -/
theorem fields_of_append (op rsv : BitVec 4) (a : Byte) (d : Word32) :
    CmdField.op (op ++ rsv ++ a ++ d) = op ∧ CmdField.rsv (op ++ rsv ++ a ++ d) = rsv ∧
    CmdField.a8 (op ++ rsv ++ a ++ d) = a ∧ CmdField.d32 (op ++ rsv ++ a ++ d) = d := by
  refine ⟨?_, ?_, ?_, ?_⟩ <;> apply BitVec.eq_of_getLsbD_eq <;> intro i hi <;>
    simp only [CmdField.op, CmdField.rsv, CmdField.a8, CmdField.d32, BitVec.getLsbD_extractLsb', BitVec.getLsbD_append, hi,
      decide_true, Bool.true_and]
  · rw [if_neg (by omega), if_neg (by omega), if_neg (by omega)]; congr 1; omega
  · rw [if_neg (by omega), if_neg (by omega), if_pos (by omega)]; congr 1; omega
  · rw [if_neg (by omega), if_pos (by omega)]; congr 1; omega
  · rw [if_pos (by omega)]; congr 1; omega

end Sys2Proof
end

