-- ==== Sys2Proof/Laws/State.lean ====
section
/-! SUPPORT. For each shared update of the state, what every field holds after it: one lemma per field, true by `rfl`. -/

namespace Sys2Proof.Machine

/-! ### `finish` (R156) -/

@[simp] theorem finish_cfg (st : BitVec 2) (d : Word32) (s : State) : (finish st d s).cfg = s.cfg := rfl
@[simp] theorem finish_crc (st : BitVec 2) (d : Word32) (s : State) : (finish st d s).crc = s.crc := rfl
@[simp] theorem finish_phase (st : BitVec 2) (d : Word32) (s : State) : (finish st d s).phase = .idle := rfl
@[simp] theorem finish_op (st : BitVec 2) (d : Word32) (s : State) : (finish st d s).op = s.op := rfl
@[simp] theorem finish_addr (st : BitVec 2) (d : Word32) (s : State) : (finish st d s).addr = s.addr := rfl
@[simp] theorem finish_data (st : BitVec 2) (d : Word32) (s : State) : (finish st d s).data = s.data := rfl
@[simp] theorem finish_stage (st : BitVec 2) (d : Word32) (s : State) : (finish st d s).stage = s.stage := rfl
@[simp] theorem finish_kind (st : BitVec 2) (d : Word32) (s : State) : (finish st d s).kind = s.kind := rfl
@[simp] theorem finish_txFrame (st : BitVec 2) (d : Word32) (s : State) : (finish st d s).txFrame = [] := rfl
@[simp] theorem finish_txIdx (st : BitVec 2) (d : Word32) (s : State) : (finish st d s).txIdx = 0 := rfl
@[simp] theorem finish_timer (st : BitVec 2) (d : Word32) (s : State) : (finish st d s).timer = 0 := rfl
@[simp] theorem finish_attempt (st : BitVec 2) (d : Word32) (s : State) : (finish st d s).attempt = s.attempt := rfl
@[simp] theorem finish_limit (st : BitVec 2) (d : Word32) (s : State) : (finish st d s).limit = s.limit := rfl
@[simp] theorem finish_curAddr (st : BitVec 2) (d : Word32) (s : State) : (finish st d s).curAddr = s.curAddr := rfl
@[simp] theorem finish_rx (st : BitVec 2) (d : Word32) (s : State) : (finish st d s).rx = .off := rfl
@[simp] theorem finish_rxBuf (st : BitVec 2) (d : Word32) (s : State) : (finish st d s).rxBuf = [] := rfl
@[simp] theorem finish_before (st : BitVec 2) (d : Word32) (s : State) : (finish st d s).before = s.before := rfl
@[simp] theorem finish_crcAcc (st : BitVec 2) (d : Word32) (s : State) : (finish st d s).crcAcc = s.crcAcc := rfl
@[simp] theorem finish_respValid (st : BitVec 2) (d : Word32) (s : State) : (finish st d s).respValid = true := rfl
@[simp] theorem finish_respStatus (st : BitVec 2) (d : Word32) (s : State) : (finish st d s).respStatus = st := rfl
@[simp] theorem finish_respData (st : BitVec 2) (d : Word32) (s : State) : (finish st d s).respData = d := rfl
@[simp] theorem finish_respCrcOk (st : BitVec 2) (d : Word32) (s : State) : (finish st d s).respCrcOk = s.crcAcc := rfl
@[simp] theorem finish_wire (st : BitVec 2) (d : Word32) (s : State) : (finish st d s).wire = s.wire := rfl
@[simp] theorem finish_diag (st : BitVec 2) (d : Word32) (s : State) : (finish st d s).diag = s.diag := rfl
@[simp] theorem finish_events (st : BitVec 2) (d : Word32) (s : State) : (finish st d s).events = s.events := rfl

/-! ### `raiseTransportTimeout` (R9) -/

@[simp] theorem raiseTransportTimeout_cfg (s : State) : (raiseTransportTimeout s).cfg = s.cfg := rfl
@[simp] theorem raiseTransportTimeout_crc (s : State) : (raiseTransportTimeout s).crc = s.crc := rfl
@[simp] theorem raiseTransportTimeout_phase (s : State) : (raiseTransportTimeout s).phase = .idle := rfl
@[simp] theorem raiseTransportTimeout_op (s : State) : (raiseTransportTimeout s).op = s.op := rfl
@[simp] theorem raiseTransportTimeout_addr (s : State) : (raiseTransportTimeout s).addr = s.addr := rfl
@[simp] theorem raiseTransportTimeout_data (s : State) : (raiseTransportTimeout s).data = s.data := rfl
@[simp] theorem raiseTransportTimeout_stage (s : State) : (raiseTransportTimeout s).stage = s.stage := rfl
@[simp] theorem raiseTransportTimeout_kind (s : State) : (raiseTransportTimeout s).kind = s.kind := rfl
@[simp] theorem raiseTransportTimeout_txFrame (s : State) : (raiseTransportTimeout s).txFrame = [] := rfl
@[simp] theorem raiseTransportTimeout_txIdx (s : State) : (raiseTransportTimeout s).txIdx = 0 := rfl
@[simp] theorem raiseTransportTimeout_timer (s : State) : (raiseTransportTimeout s).timer = 0 := rfl
@[simp] theorem raiseTransportTimeout_attempt (s : State) : (raiseTransportTimeout s).attempt = s.attempt := rfl
@[simp] theorem raiseTransportTimeout_limit (s : State) : (raiseTransportTimeout s).limit = s.limit := rfl
@[simp] theorem raiseTransportTimeout_curAddr (s : State) : (raiseTransportTimeout s).curAddr = s.curAddr := rfl
@[simp] theorem raiseTransportTimeout_rx (s : State) : (raiseTransportTimeout s).rx = .off := rfl
@[simp] theorem raiseTransportTimeout_rxBuf (s : State) : (raiseTransportTimeout s).rxBuf = [] := rfl
@[simp] theorem raiseTransportTimeout_before (s : State) : (raiseTransportTimeout s).before = s.before := rfl
@[simp] theorem raiseTransportTimeout_crcAcc (s : State) : (raiseTransportTimeout s).crcAcc = s.crcAcc := rfl
@[simp] theorem raiseTransportTimeout_respValid (s : State) : (raiseTransportTimeout s).respValid = true := rfl
@[simp] theorem raiseTransportTimeout_respStatus (s : State) : (raiseTransportTimeout s).respStatus = statusTransportTimeout := rfl
@[simp] theorem raiseTransportTimeout_respData (s : State) : (raiseTransportTimeout s).respData = 0 := rfl
@[simp] theorem raiseTransportTimeout_respCrcOk (s : State) : (raiseTransportTimeout s).respCrcOk = s.crcAcc := rfl
@[simp] theorem raiseTransportTimeout_wire (s : State) : (raiseTransportTimeout s).wire = s.wire := rfl
@[simp] theorem raiseTransportTimeout_diag (s : State) : (raiseTransportTimeout s).diag = s.diag := rfl
@[simp] theorem raiseTransportTimeout_events (s : State) : (raiseTransportTimeout s).events = s.events := rfl

/-! ### `raiseIllegalCommand` (R9) -/

@[simp] theorem raiseIllegalCommand_cfg (s : State) : (raiseIllegalCommand s).cfg = s.cfg := rfl
@[simp] theorem raiseIllegalCommand_crc (s : State) : (raiseIllegalCommand s).crc = s.crc := rfl
@[simp] theorem raiseIllegalCommand_phase (s : State) : (raiseIllegalCommand s).phase = .idle := rfl
@[simp] theorem raiseIllegalCommand_op (s : State) : (raiseIllegalCommand s).op = s.op := rfl
@[simp] theorem raiseIllegalCommand_addr (s : State) : (raiseIllegalCommand s).addr = s.addr := rfl
@[simp] theorem raiseIllegalCommand_data (s : State) : (raiseIllegalCommand s).data = s.data := rfl
@[simp] theorem raiseIllegalCommand_stage (s : State) : (raiseIllegalCommand s).stage = s.stage := rfl
@[simp] theorem raiseIllegalCommand_kind (s : State) : (raiseIllegalCommand s).kind = s.kind := rfl
@[simp] theorem raiseIllegalCommand_txFrame (s : State) : (raiseIllegalCommand s).txFrame = [] := rfl
@[simp] theorem raiseIllegalCommand_txIdx (s : State) : (raiseIllegalCommand s).txIdx = 0 := rfl
@[simp] theorem raiseIllegalCommand_timer (s : State) : (raiseIllegalCommand s).timer = 0 := rfl
@[simp] theorem raiseIllegalCommand_attempt (s : State) : (raiseIllegalCommand s).attempt = s.attempt := rfl
@[simp] theorem raiseIllegalCommand_limit (s : State) : (raiseIllegalCommand s).limit = s.limit := rfl
@[simp] theorem raiseIllegalCommand_curAddr (s : State) : (raiseIllegalCommand s).curAddr = s.curAddr := rfl
@[simp] theorem raiseIllegalCommand_rx (s : State) : (raiseIllegalCommand s).rx = .off := rfl
@[simp] theorem raiseIllegalCommand_rxBuf (s : State) : (raiseIllegalCommand s).rxBuf = [] := rfl
@[simp] theorem raiseIllegalCommand_before (s : State) : (raiseIllegalCommand s).before = s.before := rfl
@[simp] theorem raiseIllegalCommand_crcAcc (s : State) : (raiseIllegalCommand s).crcAcc = s.crcAcc := rfl
@[simp] theorem raiseIllegalCommand_respValid (s : State) : (raiseIllegalCommand s).respValid = true := rfl
@[simp] theorem raiseIllegalCommand_respStatus (s : State) : (raiseIllegalCommand s).respStatus = statusIllegalCommand := rfl
@[simp] theorem raiseIllegalCommand_respData (s : State) : (raiseIllegalCommand s).respData = 0 := rfl
@[simp] theorem raiseIllegalCommand_respCrcOk (s : State) : (raiseIllegalCommand s).respCrcOk = s.crcAcc := rfl
@[simp] theorem raiseIllegalCommand_wire (s : State) : (raiseIllegalCommand s).wire = s.wire := rfl
@[simp] theorem raiseIllegalCommand_diag (s : State) : (raiseIllegalCommand s).diag = s.diag := rfl
@[simp] theorem raiseIllegalCommand_events (s : State) : (raiseIllegalCommand s).events = s.events := rfl

/-! ### `startAttempt` (R155) -/

@[simp] theorem startAttempt_cfg (s : State) : (startAttempt s).cfg = s.cfg := rfl
@[simp] theorem startAttempt_crc (s : State) : (startAttempt s).crc = s.crc := rfl
@[simp] theorem startAttempt_phase (s : State) : (startAttempt s).phase = .tx := rfl
@[simp] theorem startAttempt_op (s : State) : (startAttempt s).op = s.op := rfl
@[simp] theorem startAttempt_addr (s : State) : (startAttempt s).addr = s.addr := rfl
@[simp] theorem startAttempt_data (s : State) : (startAttempt s).data = s.data := rfl
@[simp] theorem startAttempt_stage (s : State) : (startAttempt s).stage = s.stage := rfl
@[simp] theorem startAttempt_kind (s : State) : (startAttempt s).kind = s.kind := rfl
@[simp] theorem startAttempt_txFrame (s : State) : (startAttempt s).txFrame = readFrame s.cfg s.curAddr := rfl
@[simp] theorem startAttempt_txIdx (s : State) : (startAttempt s).txIdx = 0 := rfl
@[simp] theorem startAttempt_timer (s : State) : (startAttempt s).timer = 0 := rfl
@[simp] theorem startAttempt_attempt (s : State) : (startAttempt s).attempt = s.attempt := rfl
@[simp] theorem startAttempt_limit (s : State) : (startAttempt s).limit = s.limit := rfl
@[simp] theorem startAttempt_curAddr (s : State) : (startAttempt s).curAddr = s.curAddr := rfl
@[simp] theorem startAttempt_rx (s : State) : (startAttempt s).rx = .hunt := rfl
@[simp] theorem startAttempt_rxBuf (s : State) : (startAttempt s).rxBuf = [] := rfl
@[simp] theorem startAttempt_before (s : State) : (startAttempt s).before = s.before := rfl
@[simp] theorem startAttempt_crcAcc (s : State) : (startAttempt s).crcAcc = s.crcAcc := rfl
@[simp] theorem startAttempt_respValid (s : State) : (startAttempt s).respValid = s.respValid := rfl
@[simp] theorem startAttempt_respStatus (s : State) : (startAttempt s).respStatus = s.respStatus := rfl
@[simp] theorem startAttempt_respData (s : State) : (startAttempt s).respData = s.respData := rfl
@[simp] theorem startAttempt_respCrcOk (s : State) : (startAttempt s).respCrcOk = s.respCrcOk := rfl
@[simp] theorem startAttempt_wire (s : State) : (startAttempt s).wire = s.wire := rfl
@[simp] theorem startAttempt_diag (s : State) : (startAttempt s).diag = s.diag := rfl
@[simp] theorem startAttempt_events (s : State) : (startAttempt s).events = s.events := rfl

/-! ### `startRead` (R155) -/

@[simp] theorem startRead_cfg (a : Reg7) (n : Nat) (s : State) : (startRead a n s).cfg = s.cfg := rfl
@[simp] theorem startRead_crc (a : Reg7) (n : Nat) (s : State) : (startRead a n s).crc = s.crc := rfl
@[simp] theorem startRead_phase (a : Reg7) (n : Nat) (s : State) : (startRead a n s).phase = .tx := rfl
@[simp] theorem startRead_op (a : Reg7) (n : Nat) (s : State) : (startRead a n s).op = s.op := rfl
@[simp] theorem startRead_addr (a : Reg7) (n : Nat) (s : State) : (startRead a n s).addr = s.addr := rfl
@[simp] theorem startRead_data (a : Reg7) (n : Nat) (s : State) : (startRead a n s).data = s.data := rfl
@[simp] theorem startRead_stage (a : Reg7) (n : Nat) (s : State) : (startRead a n s).stage = s.stage := rfl
@[simp] theorem startRead_kind (a : Reg7) (n : Nat) (s : State) : (startRead a n s).kind = .read := rfl
@[simp] theorem startRead_txFrame (a : Reg7) (n : Nat) (s : State) : (startRead a n s).txFrame = readFrame s.cfg a := rfl
@[simp] theorem startRead_txIdx (a : Reg7) (n : Nat) (s : State) : (startRead a n s).txIdx = 0 := rfl
@[simp] theorem startRead_timer (a : Reg7) (n : Nat) (s : State) : (startRead a n s).timer = 0 := rfl
@[simp] theorem startRead_attempt (a : Reg7) (n : Nat) (s : State) : (startRead a n s).attempt = 1 := rfl
@[simp] theorem startRead_limit (a : Reg7) (n : Nat) (s : State) : (startRead a n s).limit = n := rfl
@[simp] theorem startRead_curAddr (a : Reg7) (n : Nat) (s : State) : (startRead a n s).curAddr = a := rfl
@[simp] theorem startRead_rx (a : Reg7) (n : Nat) (s : State) : (startRead a n s).rx = .hunt := rfl
@[simp] theorem startRead_rxBuf (a : Reg7) (n : Nat) (s : State) : (startRead a n s).rxBuf = [] := rfl
@[simp] theorem startRead_before (a : Reg7) (n : Nat) (s : State) : (startRead a n s).before = s.before := rfl
@[simp] theorem startRead_crcAcc (a : Reg7) (n : Nat) (s : State) : (startRead a n s).crcAcc = s.crcAcc := rfl
@[simp] theorem startRead_respValid (a : Reg7) (n : Nat) (s : State) : (startRead a n s).respValid = s.respValid := rfl
@[simp] theorem startRead_respStatus (a : Reg7) (n : Nat) (s : State) : (startRead a n s).respStatus = s.respStatus := rfl
@[simp] theorem startRead_respData (a : Reg7) (n : Nat) (s : State) : (startRead a n s).respData = s.respData := rfl
@[simp] theorem startRead_respCrcOk (a : Reg7) (n : Nat) (s : State) : (startRead a n s).respCrcOk = s.respCrcOk := rfl
@[simp] theorem startRead_wire (a : Reg7) (n : Nat) (s : State) : (startRead a n s).wire = s.wire := rfl
@[simp] theorem startRead_diag (a : Reg7) (n : Nat) (s : State) : (startRead a n s).diag = s.diag := rfl
@[simp] theorem startRead_events (a : Reg7) (n : Nat) (s : State) : (startRead a n s).events = s.events := rfl

/-! ### `startWrite` (R155) -/

@[simp] theorem startWrite_cfg (a : Reg7) (d : Word32) (s : State) : (startWrite a d s).cfg = s.cfg := rfl
@[simp] theorem startWrite_crc (a : Reg7) (d : Word32) (s : State) : (startWrite a d s).crc = s.crc := rfl
@[simp] theorem startWrite_phase (a : Reg7) (d : Word32) (s : State) : (startWrite a d s).phase = .tx := rfl
@[simp] theorem startWrite_op (a : Reg7) (d : Word32) (s : State) : (startWrite a d s).op = s.op := rfl
@[simp] theorem startWrite_addr (a : Reg7) (d : Word32) (s : State) : (startWrite a d s).addr = s.addr := rfl
@[simp] theorem startWrite_data (a : Reg7) (d : Word32) (s : State) : (startWrite a d s).data = s.data := rfl
@[simp] theorem startWrite_stage (a : Reg7) (d : Word32) (s : State) : (startWrite a d s).stage = s.stage := rfl
@[simp] theorem startWrite_kind (a : Reg7) (d : Word32) (s : State) : (startWrite a d s).kind = .write := rfl
@[simp] theorem startWrite_txFrame (a : Reg7) (d : Word32) (s : State) : (startWrite a d s).txFrame = writeFrame s.cfg a d := rfl
@[simp] theorem startWrite_txIdx (a : Reg7) (d : Word32) (s : State) : (startWrite a d s).txIdx = 0 := rfl
@[simp] theorem startWrite_timer (a : Reg7) (d : Word32) (s : State) : (startWrite a d s).timer = 0 := rfl
@[simp] theorem startWrite_attempt (a : Reg7) (d : Word32) (s : State) : (startWrite a d s).attempt = s.attempt := rfl
@[simp] theorem startWrite_limit (a : Reg7) (d : Word32) (s : State) : (startWrite a d s).limit = s.limit := rfl
@[simp] theorem startWrite_curAddr (a : Reg7) (d : Word32) (s : State) : (startWrite a d s).curAddr = s.curAddr := rfl
@[simp] theorem startWrite_rx (a : Reg7) (d : Word32) (s : State) : (startWrite a d s).rx = .off := rfl
@[simp] theorem startWrite_rxBuf (a : Reg7) (d : Word32) (s : State) : (startWrite a d s).rxBuf = [] := rfl
@[simp] theorem startWrite_before (a : Reg7) (d : Word32) (s : State) : (startWrite a d s).before = s.before := rfl
@[simp] theorem startWrite_crcAcc (a : Reg7) (d : Word32) (s : State) : (startWrite a d s).crcAcc = s.crcAcc := rfl
@[simp] theorem startWrite_respValid (a : Reg7) (d : Word32) (s : State) : (startWrite a d s).respValid = s.respValid := rfl
@[simp] theorem startWrite_respStatus (a : Reg7) (d : Word32) (s : State) : (startWrite a d s).respStatus = s.respStatus := rfl
@[simp] theorem startWrite_respData (a : Reg7) (d : Word32) (s : State) : (startWrite a d s).respData = s.respData := rfl
@[simp] theorem startWrite_respCrcOk (a : Reg7) (d : Word32) (s : State) : (startWrite a d s).respCrcOk = s.respCrcOk := rfl
@[simp] theorem startWrite_wire (a : Reg7) (d : Word32) (s : State) : (startWrite a d s).wire = s.wire := rfl
@[simp] theorem startWrite_diag (a : Reg7) (d : Word32) (s : State) : (startWrite a d s).diag = s.diag := rfl
@[simp] theorem startWrite_events (a : Reg7) (d : Word32) (s : State) : (startWrite a d s).events = s.events := rfl

/-! ### `disarm` (R145) -/

@[simp] theorem disarm_cfg (s : State) : (disarm s).cfg = s.cfg := rfl
@[simp] theorem disarm_crc (s : State) : (disarm s).crc = s.crc := rfl
@[simp] theorem disarm_phase (s : State) : (disarm s).phase = s.phase := rfl
@[simp] theorem disarm_op (s : State) : (disarm s).op = s.op := rfl
@[simp] theorem disarm_addr (s : State) : (disarm s).addr = s.addr := rfl
@[simp] theorem disarm_data (s : State) : (disarm s).data = s.data := rfl
@[simp] theorem disarm_stage (s : State) : (disarm s).stage = s.stage := rfl
@[simp] theorem disarm_kind (s : State) : (disarm s).kind = s.kind := rfl
@[simp] theorem disarm_txFrame (s : State) : (disarm s).txFrame = s.txFrame := rfl
@[simp] theorem disarm_txIdx (s : State) : (disarm s).txIdx = s.txIdx := rfl
@[simp] theorem disarm_timer (s : State) : (disarm s).timer = s.timer := rfl
@[simp] theorem disarm_attempt (s : State) : (disarm s).attempt = s.attempt := rfl
@[simp] theorem disarm_limit (s : State) : (disarm s).limit = s.limit := rfl
@[simp] theorem disarm_curAddr (s : State) : (disarm s).curAddr = s.curAddr := rfl
@[simp] theorem disarm_rx (s : State) : (disarm s).rx = .off := rfl
@[simp] theorem disarm_rxBuf (s : State) : (disarm s).rxBuf = [] := rfl
@[simp] theorem disarm_before (s : State) : (disarm s).before = s.before := rfl
@[simp] theorem disarm_crcAcc (s : State) : (disarm s).crcAcc = s.crcAcc := rfl
@[simp] theorem disarm_respValid (s : State) : (disarm s).respValid = s.respValid := rfl
@[simp] theorem disarm_respStatus (s : State) : (disarm s).respStatus = s.respStatus := rfl
@[simp] theorem disarm_respData (s : State) : (disarm s).respData = s.respData := rfl
@[simp] theorem disarm_respCrcOk (s : State) : (disarm s).respCrcOk = s.respCrcOk := rfl
@[simp] theorem disarm_wire (s : State) : (disarm s).wire = s.wire := rfl
@[simp] theorem disarm_diag (s : State) : (disarm s).diag = s.diag := rfl
@[simp] theorem disarm_events (s : State) : (disarm s).events = s.events := rfl

/-! ### `openCommand` (R144) -/

@[simp] theorem openCommand_cfg (s : State) : (openCommand s).cfg = s.cfg := rfl
@[simp] theorem openCommand_crc (s : State) : (openCommand s).crc = s.crc := rfl
@[simp] theorem openCommand_phase (s : State) : (openCommand s).phase = s.phase := rfl
@[simp] theorem openCommand_op (s : State) : (openCommand s).op = s.op := rfl
@[simp] theorem openCommand_addr (s : State) : (openCommand s).addr = s.addr := rfl
@[simp] theorem openCommand_data (s : State) : (openCommand s).data = s.data := rfl
@[simp] theorem openCommand_stage (s : State) : (openCommand s).stage = s.stage := rfl
@[simp] theorem openCommand_kind (s : State) : (openCommand s).kind = s.kind := rfl
@[simp] theorem openCommand_txFrame (s : State) : (openCommand s).txFrame = s.txFrame := rfl
@[simp] theorem openCommand_txIdx (s : State) : (openCommand s).txIdx = s.txIdx := rfl
@[simp] theorem openCommand_timer (s : State) : (openCommand s).timer = s.timer := rfl
@[simp] theorem openCommand_attempt (s : State) : (openCommand s).attempt = s.attempt := rfl
@[simp] theorem openCommand_limit (s : State) : (openCommand s).limit = s.limit := rfl
@[simp] theorem openCommand_curAddr (s : State) : (openCommand s).curAddr = s.curAddr := rfl
@[simp] theorem openCommand_rx (s : State) : (openCommand s).rx = s.rx := rfl
@[simp] theorem openCommand_rxBuf (s : State) : (openCommand s).rxBuf = s.rxBuf := rfl
@[simp] theorem openCommand_before (s : State) : (openCommand s).before = s.before := rfl
@[simp] theorem openCommand_crcAcc (s : State) : (openCommand s).crcAcc = true := rfl
@[simp] theorem openCommand_respValid (s : State) : (openCommand s).respValid = false := rfl
@[simp] theorem openCommand_respStatus (s : State) : (openCommand s).respStatus = s.respStatus := rfl
@[simp] theorem openCommand_respData (s : State) : (openCommand s).respData = s.respData := rfl
@[simp] theorem openCommand_respCrcOk (s : State) : (openCommand s).respCrcOk = s.respCrcOk := rfl
@[simp] theorem openCommand_wire (s : State) : (openCommand s).wire = s.wire := rfl
@[simp] theorem openCommand_diag (s : State) : (openCommand s).diag = s.diag := rfl
@[simp] theorem openCommand_events (s : State) : (openCommand s).events = s.events := rfl

/-! ### `latch` (R144) -/

@[simp] theorem latch_cfg (op : TransportOp) (a8 : Byte) (d : Word32) (s : State) : (latch op a8 d s).cfg = s.cfg := rfl
@[simp] theorem latch_crc (op : TransportOp) (a8 : Byte) (d : Word32) (s : State) : (latch op a8 d s).crc = s.crc := rfl
@[simp] theorem latch_phase (op : TransportOp) (a8 : Byte) (d : Word32) (s : State) : (latch op a8 d s).phase = s.phase := rfl
@[simp] theorem latch_op (op : TransportOp) (a8 : Byte) (d : Word32) (s : State) : (latch op a8 d s).op = op := rfl
@[simp] theorem latch_addr (op : TransportOp) (a8 : Byte) (d : Word32) (s : State) : (latch op a8 d s).addr = regNumber a8 := rfl
@[simp] theorem latch_data (op : TransportOp) (a8 : Byte) (d : Word32) (s : State) : (latch op a8 d s).data = d := rfl
@[simp] theorem latch_stage (op : TransportOp) (a8 : Byte) (d : Word32) (s : State) : (latch op a8 d s).stage = s.stage := rfl
@[simp] theorem latch_kind (op : TransportOp) (a8 : Byte) (d : Word32) (s : State) : (latch op a8 d s).kind = s.kind := rfl
@[simp] theorem latch_txFrame (op : TransportOp) (a8 : Byte) (d : Word32) (s : State) : (latch op a8 d s).txFrame = s.txFrame := rfl
@[simp] theorem latch_txIdx (op : TransportOp) (a8 : Byte) (d : Word32) (s : State) : (latch op a8 d s).txIdx = s.txIdx := rfl
@[simp] theorem latch_timer (op : TransportOp) (a8 : Byte) (d : Word32) (s : State) : (latch op a8 d s).timer = s.timer := rfl
@[simp] theorem latch_attempt (op : TransportOp) (a8 : Byte) (d : Word32) (s : State) : (latch op a8 d s).attempt = s.attempt := rfl
@[simp] theorem latch_limit (op : TransportOp) (a8 : Byte) (d : Word32) (s : State) : (latch op a8 d s).limit = s.limit := rfl
@[simp] theorem latch_curAddr (op : TransportOp) (a8 : Byte) (d : Word32) (s : State) : (latch op a8 d s).curAddr = s.curAddr := rfl
@[simp] theorem latch_rx (op : TransportOp) (a8 : Byte) (d : Word32) (s : State) : (latch op a8 d s).rx = s.rx := rfl
@[simp] theorem latch_rxBuf (op : TransportOp) (a8 : Byte) (d : Word32) (s : State) : (latch op a8 d s).rxBuf = s.rxBuf := rfl
@[simp] theorem latch_before (op : TransportOp) (a8 : Byte) (d : Word32) (s : State) : (latch op a8 d s).before = s.before := rfl
@[simp] theorem latch_crcAcc (op : TransportOp) (a8 : Byte) (d : Word32) (s : State) : (latch op a8 d s).crcAcc = s.crcAcc := rfl
@[simp] theorem latch_respValid (op : TransportOp) (a8 : Byte) (d : Word32) (s : State) : (latch op a8 d s).respValid = s.respValid := rfl
@[simp] theorem latch_respStatus (op : TransportOp) (a8 : Byte) (d : Word32) (s : State) : (latch op a8 d s).respStatus = s.respStatus := rfl
@[simp] theorem latch_respData (op : TransportOp) (a8 : Byte) (d : Word32) (s : State) : (latch op a8 d s).respData = s.respData := rfl
@[simp] theorem latch_respCrcOk (op : TransportOp) (a8 : Byte) (d : Word32) (s : State) : (latch op a8 d s).respCrcOk = s.respCrcOk := rfl
@[simp] theorem latch_wire (op : TransportOp) (a8 : Byte) (d : Word32) (s : State) : (latch op a8 d s).wire = s.wire := rfl
@[simp] theorem latch_diag (op : TransportOp) (a8 : Byte) (d : Word32) (s : State) : (latch op a8 d s).diag = s.diag := rfl
@[simp] theorem latch_events (op : TransportOp) (a8 : Byte) (d : Word32) (s : State) : (latch op a8 d s).events = s.events := rfl

/-! ### `enterStage` (R24) -/

@[simp] theorem enterStage_cfg (st : Stage) (s : State) : (enterStage st s).cfg = s.cfg := rfl
@[simp] theorem enterStage_crc (st : Stage) (s : State) : (enterStage st s).crc = s.crc := rfl
@[simp] theorem enterStage_phase (st : Stage) (s : State) : (enterStage st s).phase = s.phase := rfl
@[simp] theorem enterStage_op (st : Stage) (s : State) : (enterStage st s).op = s.op := rfl
@[simp] theorem enterStage_addr (st : Stage) (s : State) : (enterStage st s).addr = s.addr := rfl
@[simp] theorem enterStage_data (st : Stage) (s : State) : (enterStage st s).data = s.data := rfl
@[simp] theorem enterStage_stage (st : Stage) (s : State) : (enterStage st s).stage = st := rfl
@[simp] theorem enterStage_kind (st : Stage) (s : State) : (enterStage st s).kind = s.kind := rfl
@[simp] theorem enterStage_txFrame (st : Stage) (s : State) : (enterStage st s).txFrame = s.txFrame := rfl
@[simp] theorem enterStage_txIdx (st : Stage) (s : State) : (enterStage st s).txIdx = s.txIdx := rfl
@[simp] theorem enterStage_timer (st : Stage) (s : State) : (enterStage st s).timer = s.timer := rfl
@[simp] theorem enterStage_attempt (st : Stage) (s : State) : (enterStage st s).attempt = s.attempt := rfl
@[simp] theorem enterStage_limit (st : Stage) (s : State) : (enterStage st s).limit = s.limit := rfl
@[simp] theorem enterStage_curAddr (st : Stage) (s : State) : (enterStage st s).curAddr = s.curAddr := rfl
@[simp] theorem enterStage_rx (st : Stage) (s : State) : (enterStage st s).rx = s.rx := rfl
@[simp] theorem enterStage_rxBuf (st : Stage) (s : State) : (enterStage st s).rxBuf = s.rxBuf := rfl
@[simp] theorem enterStage_before (st : Stage) (s : State) : (enterStage st s).before = s.before := rfl
@[simp] theorem enterStage_crcAcc (st : Stage) (s : State) : (enterStage st s).crcAcc = s.crcAcc := rfl
@[simp] theorem enterStage_respValid (st : Stage) (s : State) : (enterStage st s).respValid = s.respValid := rfl
@[simp] theorem enterStage_respStatus (st : Stage) (s : State) : (enterStage st s).respStatus = s.respStatus := rfl
@[simp] theorem enterStage_respData (st : Stage) (s : State) : (enterStage st s).respData = s.respData := rfl
@[simp] theorem enterStage_respCrcOk (st : Stage) (s : State) : (enterStage st s).respCrcOk = s.respCrcOk := rfl
@[simp] theorem enterStage_wire (st : Stage) (s : State) : (enterStage st s).wire = s.wire := rfl
@[simp] theorem enterStage_diag (st : Stage) (s : State) : (enterStage st s).diag = s.diag := rfl
@[simp] theorem enterStage_events (st : Stage) (s : State) : (enterStage st s).events = s.events := rfl

/-! ### `resetState` (R260) -/

@[simp] theorem resetState_cfg (s : State) : (resetState s).cfg = s.cfg := rfl
@[simp] theorem resetState_crc (s : State) : (resetState s).crc = State.reset.crc := rfl
@[simp] theorem resetState_phase (s : State) : (resetState s).phase = State.reset.phase := rfl
@[simp] theorem resetState_op (s : State) : (resetState s).op = State.reset.op := rfl
@[simp] theorem resetState_addr (s : State) : (resetState s).addr = State.reset.addr := rfl
@[simp] theorem resetState_data (s : State) : (resetState s).data = State.reset.data := rfl
@[simp] theorem resetState_stage (s : State) : (resetState s).stage = State.reset.stage := rfl
@[simp] theorem resetState_kind (s : State) : (resetState s).kind = State.reset.kind := rfl
@[simp] theorem resetState_txFrame (s : State) : (resetState s).txFrame = State.reset.txFrame := rfl
@[simp] theorem resetState_txIdx (s : State) : (resetState s).txIdx = State.reset.txIdx := rfl
@[simp] theorem resetState_timer (s : State) : (resetState s).timer = State.reset.timer := rfl
@[simp] theorem resetState_attempt (s : State) : (resetState s).attempt = State.reset.attempt := rfl
@[simp] theorem resetState_limit (s : State) : (resetState s).limit = State.reset.limit := rfl
@[simp] theorem resetState_curAddr (s : State) : (resetState s).curAddr = State.reset.curAddr := rfl
@[simp] theorem resetState_rx (s : State) : (resetState s).rx = State.reset.rx := rfl
@[simp] theorem resetState_rxBuf (s : State) : (resetState s).rxBuf = State.reset.rxBuf := rfl
@[simp] theorem resetState_before (s : State) : (resetState s).before = State.reset.before := rfl
@[simp] theorem resetState_crcAcc (s : State) : (resetState s).crcAcc = State.reset.crcAcc := rfl
@[simp] theorem resetState_respValid (s : State) : (resetState s).respValid = State.reset.respValid := rfl
@[simp] theorem resetState_respStatus (s : State) : (resetState s).respStatus = State.reset.respStatus := rfl
@[simp] theorem resetState_respData (s : State) : (resetState s).respData = State.reset.respData := rfl
@[simp] theorem resetState_respCrcOk (s : State) : (resetState s).respCrcOk = State.reset.respCrcOk := rfl
@[simp] theorem resetState_wire (s : State) : (resetState s).wire = s.wire := rfl
@[simp] theorem resetState_diag (s : State) : (resetState s).diag = s.diag := rfl
@[simp] theorem resetState_events (s : State) : (resetState s).events = s.events := rfl

/-! ### `withEvents` (R10) -/

@[simp] theorem withEvents_cfg (evs : List Event) (s : State) : (withEvents evs s).cfg = s.cfg := rfl
@[simp] theorem withEvents_crc (evs : List Event) (s : State) : (withEvents evs s).crc = s.crc := rfl
@[simp] theorem withEvents_phase (evs : List Event) (s : State) : (withEvents evs s).phase = s.phase := rfl
@[simp] theorem withEvents_op (evs : List Event) (s : State) : (withEvents evs s).op = s.op := rfl
@[simp] theorem withEvents_addr (evs : List Event) (s : State) : (withEvents evs s).addr = s.addr := rfl
@[simp] theorem withEvents_data (evs : List Event) (s : State) : (withEvents evs s).data = s.data := rfl
@[simp] theorem withEvents_stage (evs : List Event) (s : State) : (withEvents evs s).stage = s.stage := rfl
@[simp] theorem withEvents_kind (evs : List Event) (s : State) : (withEvents evs s).kind = s.kind := rfl
@[simp] theorem withEvents_txFrame (evs : List Event) (s : State) : (withEvents evs s).txFrame = s.txFrame := rfl
@[simp] theorem withEvents_txIdx (evs : List Event) (s : State) : (withEvents evs s).txIdx = s.txIdx := rfl
@[simp] theorem withEvents_timer (evs : List Event) (s : State) : (withEvents evs s).timer = s.timer := rfl
@[simp] theorem withEvents_attempt (evs : List Event) (s : State) : (withEvents evs s).attempt = s.attempt := rfl
@[simp] theorem withEvents_limit (evs : List Event) (s : State) : (withEvents evs s).limit = s.limit := rfl
@[simp] theorem withEvents_curAddr (evs : List Event) (s : State) : (withEvents evs s).curAddr = s.curAddr := rfl
@[simp] theorem withEvents_rx (evs : List Event) (s : State) : (withEvents evs s).rx = s.rx := rfl
@[simp] theorem withEvents_rxBuf (evs : List Event) (s : State) : (withEvents evs s).rxBuf = s.rxBuf := rfl
@[simp] theorem withEvents_before (evs : List Event) (s : State) : (withEvents evs s).before = s.before := rfl
@[simp] theorem withEvents_crcAcc (evs : List Event) (s : State) : (withEvents evs s).crcAcc = s.crcAcc := rfl
@[simp] theorem withEvents_respValid (evs : List Event) (s : State) : (withEvents evs s).respValid = s.respValid := rfl
@[simp] theorem withEvents_respStatus (evs : List Event) (s : State) : (withEvents evs s).respStatus = s.respStatus := rfl
@[simp] theorem withEvents_respData (evs : List Event) (s : State) : (withEvents evs s).respData = s.respData := rfl
@[simp] theorem withEvents_respCrcOk (evs : List Event) (s : State) : (withEvents evs s).respCrcOk = s.respCrcOk := rfl
@[simp] theorem withEvents_wire (evs : List Event) (s : State) : (withEvents evs s).wire = s.wire := rfl
@[simp] theorem withEvents_diag (evs : List Event) (s : State) : (withEvents evs s).diag = s.diag := rfl
@[simp] theorem withEvents_events (evs : List Event) (s : State) : (withEvents evs s).events = evs := rfl

/-! ### `presentWord` (R10) -/

@[simp] theorem presentWord_cfg (w : CmdWord) (s : State) : (presentWord w s).cfg = s.cfg := rfl
@[simp] theorem presentWord_crc (w : CmdWord) (s : State) : (presentWord w s).crc = s.crc := rfl
@[simp] theorem presentWord_phase (w : CmdWord) (s : State) : (presentWord w s).phase = s.phase := rfl
@[simp] theorem presentWord_op (w : CmdWord) (s : State) : (presentWord w s).op = s.op := rfl
@[simp] theorem presentWord_addr (w : CmdWord) (s : State) : (presentWord w s).addr = s.addr := rfl
@[simp] theorem presentWord_data (w : CmdWord) (s : State) : (presentWord w s).data = s.data := rfl
@[simp] theorem presentWord_stage (w : CmdWord) (s : State) : (presentWord w s).stage = s.stage := rfl
@[simp] theorem presentWord_kind (w : CmdWord) (s : State) : (presentWord w s).kind = s.kind := rfl
@[simp] theorem presentWord_txFrame (w : CmdWord) (s : State) : (presentWord w s).txFrame = s.txFrame := rfl
@[simp] theorem presentWord_txIdx (w : CmdWord) (s : State) : (presentWord w s).txIdx = s.txIdx := rfl
@[simp] theorem presentWord_timer (w : CmdWord) (s : State) : (presentWord w s).timer = s.timer := rfl
@[simp] theorem presentWord_attempt (w : CmdWord) (s : State) : (presentWord w s).attempt = s.attempt := rfl
@[simp] theorem presentWord_limit (w : CmdWord) (s : State) : (presentWord w s).limit = s.limit := rfl
@[simp] theorem presentWord_curAddr (w : CmdWord) (s : State) : (presentWord w s).curAddr = s.curAddr := rfl
@[simp] theorem presentWord_rx (w : CmdWord) (s : State) : (presentWord w s).rx = s.rx := rfl
@[simp] theorem presentWord_rxBuf (w : CmdWord) (s : State) : (presentWord w s).rxBuf = s.rxBuf := rfl
@[simp] theorem presentWord_before (w : CmdWord) (s : State) : (presentWord w s).before = s.before := rfl
@[simp] theorem presentWord_crcAcc (w : CmdWord) (s : State) : (presentWord w s).crcAcc = s.crcAcc := rfl
@[simp] theorem presentWord_respValid (w : CmdWord) (s : State) : (presentWord w s).respValid = s.respValid := rfl
@[simp] theorem presentWord_respStatus (w : CmdWord) (s : State) : (presentWord w s).respStatus = s.respStatus := rfl
@[simp] theorem presentWord_respData (w : CmdWord) (s : State) : (presentWord w s).respData = s.respData := rfl
@[simp] theorem presentWord_respCrcOk (w : CmdWord) (s : State) : (presentWord w s).respCrcOk = s.respCrcOk := rfl
@[simp] theorem presentWord_wire (w : CmdWord) (s : State) : (presentWord w s).wire = s.wire := rfl
@[simp] theorem presentWord_diag (w : CmdWord) (s : State) : (presentWord w s).diag = s.diag := rfl
@[simp] theorem presentWord_events (w : CmdWord) (s : State) : (presentWord w s).events = .cmd w :: s.events := rfl

end Sys2Proof.Machine
end

