-- ==== Sys2Proof/Laws/Ops.lean ====
section
/-! SUPPORT. What the shared operations can do, said once: the cases of `subDone`, of the internal transitions and of the
event handlers, the fields `settle` keeps, and an induction principle for `settle`. -/

namespace Sys2Proof.Machine

variable {s t : State}

/-! ### The end of a sub-transaction -/

/-- `subDone` finishes the command, or passes WRITE_CHECKED on to its next stage. -/
theorem subDone_cases (ok : Bool) (v : Word32) (s : State) :
    (∃ st d, st ≠ statusReserved ∧ subDone ok v s = finish st d s) ∨
    (s.op = .writeChecked ∧ s.stage = .before ∧ ok = true ∧
      subDone ok v s = startWrite s.addr s.data { s with before := lowByte v, stage := .write }) ∨
    (s.op = .writeChecked ∧ s.stage = .write ∧ ok = true ∧
      subDone ok v s = startRead s.cfg.ifcntAddr s.cfg.chkTries { s with stage := .after }) := by
  cases hop : s.op <;> cases hst : s.stage <;> cases ok <;>
    simp [subDone, subDoneRead, subDoneWriteReg, subDoneWriteChecked, hop, hst, raiseTransportTimeout]
  all_goals exact ⟨_, by decide, _, rfl⟩

@[simp] theorem subDone_cfg (ok : Bool) (v : Word32) (s : State) : (subDone ok v s).cfg = s.cfg := by
  obtain ⟨st, d, -, h⟩ | ⟨-, -, -, h⟩ | ⟨-, -, -, h⟩ := subDone_cases ok v s <;> simp [h]

@[simp] theorem subDone_crc (ok : Bool) (v : Word32) (s : State) : (subDone ok v s).crc = s.crc := by
  obtain ⟨st, d, -, h⟩ | ⟨-, -, -, h⟩ | ⟨-, -, -, h⟩ := subDone_cases ok v s <;> simp [h]

@[simp] theorem subDone_op (ok : Bool) (v : Word32) (s : State) : (subDone ok v s).op = s.op := by
  obtain ⟨st, d, -, h⟩ | ⟨-, -, -, h⟩ | ⟨-, -, -, h⟩ := subDone_cases ok v s <;> simp [h]

@[simp] theorem subDone_addr (ok : Bool) (v : Word32) (s : State) : (subDone ok v s).addr = s.addr := by
  obtain ⟨st, d, -, h⟩ | ⟨-, -, -, h⟩ | ⟨-, -, -, h⟩ := subDone_cases ok v s <;> simp [h]

@[simp] theorem subDone_data (ok : Bool) (v : Word32) (s : State) : (subDone ok v s).data = s.data := by
  obtain ⟨st, d, -, h⟩ | ⟨-, -, -, h⟩ | ⟨-, -, -, h⟩ := subDone_cases ok v s <;> simp [h]

@[simp] theorem subDone_crcAcc (ok : Bool) (v : Word32) (s : State) : (subDone ok v s).crcAcc = s.crcAcc := by
  obtain ⟨st, d, -, h⟩ | ⟨-, -, -, h⟩ | ⟨-, -, -, h⟩ := subDone_cases ok v s <;> simp [h]

@[simp] theorem subDone_wire (ok : Bool) (v : Word32) (s : State) : (subDone ok v s).wire = s.wire := by
  obtain ⟨st, d, -, h⟩ | ⟨-, -, -, h⟩ | ⟨-, -, -, h⟩ := subDone_cases ok v s <;> simp [h]

@[simp] theorem subDone_diag (ok : Bool) (v : Word32) (s : State) : (subDone ok v s).diag = s.diag := by
  obtain ⟨st, d, -, h⟩ | ⟨-, -, -, h⟩ | ⟨-, -, -, h⟩ := subDone_cases ok v s <;> simp [h]

@[simp] theorem subDone_events (ok : Bool) (v : Word32) (s : State) : (subDone ok v s).events = s.events := by
  obtain ⟨st, d, -, h⟩ | ⟨-, -, -, h⟩ | ⟨-, -, -, h⟩ := subDone_cases ok v s <;> simp [h]

/-- A sub-transaction that ends leaves the block in IDLE, or at the start of a frame. -/
theorem subDone_phase (ok : Bool) (v : Word32) (s : State) :
    (subDone ok v s).phase = .idle ∨
    ((subDone ok v s).phase = .tx ∧ (subDone ok v s).txIdx = 0 ∧ (subDone ok v s).timer = 0 ∧
      0 < (subDone ok v s).txFrame.length) := by
  obtain ⟨st, d, -, h⟩ | ⟨-, -, -, h⟩ | ⟨-, -, -, h⟩ := subDone_cases ok v s <;>
    simp [h, readFrame, writeFrame, sealFrame]

/-! ### The internal transitions -/

/-- What one turn of `Settle`'s loop can do (41_transaction.md R148). -/
theorem settleOnce_cases (h : settleOnce s = some t) :
    (s.phase = .tx ∧ s.txIdx = s.txFrame.length ∧ t = txDone s) ∨
    (s.phase = .tx ∧ s.txIdx ≠ s.txFrame.length ∧ s.cfg.tTx ≤ s.timer ∧ t = attemptFailed s) ∨
    (s.phase = .pause ∧ s.cfg.tPause ≤ s.timer ∧ t = { s with phase := .capture, timer := 0 }) ∨
    (s.phase = .capture ∧ s.rx = .full ∧ t = replyCaptured s) ∨
    (s.phase = .capture ∧ s.rx ≠ .full ∧ s.cfg.tCapture ≤ s.timer ∧ t = attemptFailed s) ∨
    (s.phase = .backoff ∧ s.cfg.tPause ≤ s.timer ∧ t = startAttempt s) := by
  unfold settleOnce at h
  cases hp : s.phase <;> simp only [hp] at h
  · cases h
  · split at h
    next hi => simp only [Option.some.injEq] at h; simp_all
    next hi => split at h <;> simp_all
  · split at h <;> simp_all
  · split at h
    next hi => simp_all
    next hi => split at h <;> simp_all
  · split at h <;> simp_all

/-- Where nothing is due (R148). -/
theorem settleOnce_eq_none_iff : settleOnce s = none ↔
    (s.phase = .tx → s.txIdx ≠ s.txFrame.length ∧ s.timer < s.cfg.tTx) ∧
    (s.phase = .pause → s.timer < s.cfg.tPause) ∧
    (s.phase = .capture → s.rx ≠ .full ∧ s.timer < s.cfg.tCapture) ∧
    (s.phase = .backoff → s.timer < s.cfg.tPause) := by
  unfold settleOnce
  cases hp : s.phase <;> simp
  all_goals split <;> simp_all

/-- A failed attempt backs off, or ends its sub-transaction with the RX unit disarmed (R153). -/
theorem attemptFailed_cases (s : State) :
    (s.kind = .read ∧ s.attempt < s.limit ∧
      attemptFailed s = { disarm s with attempt := s.attempt + 1, phase := .backoff, timer := 0 }) ∨
    (¬ (s.kind = .read ∧ s.attempt < s.limit) ∧ attemptFailed s = subDone false 0 (disarm s)) := by
  unfold attemptFailed
  split
  next h => exact .inl ⟨h.1, h.2, rfl⟩
  next h => exact .inr ⟨h, rfl⟩

/-- A turn of the loop keeps the configuration. -/
theorem settleOnce_cfg (h : settleOnce s = some t) : t.cfg = s.cfg := by
  obtain ⟨-, -, rfl⟩ | ⟨-, -, -, rfl⟩ | ⟨-, -, rfl⟩ | ⟨-, -, rfl⟩ | ⟨-, -, -, rfl⟩ | ⟨-, -, rfl⟩ := settleOnce_cases h
  · unfold txDone; split <;> simp
  · obtain ⟨-, -, h⟩ | ⟨-, h⟩ := attemptFailed_cases s <;> simp [h]
  · rfl
  · simp [replyCaptured]
  · obtain ⟨-, -, h⟩ | ⟨-, h⟩ := attemptFailed_cases s <;> simp [h]
  · simp

/-- A turn of the loop keeps the host's CRC register (40_crc.md R128). -/
theorem settleOnce_crc (h : settleOnce s = some t) : t.crc = s.crc := by
  obtain ⟨-, -, rfl⟩ | ⟨-, -, -, rfl⟩ | ⟨-, -, rfl⟩ | ⟨-, -, rfl⟩ | ⟨-, -, -, rfl⟩ | ⟨-, -, rfl⟩ := settleOnce_cases h
  · unfold txDone; split <;> simp
  · obtain ⟨-, -, h⟩ | ⟨-, h⟩ := attemptFailed_cases s <;> simp [h]
  · rfl
  · simp [replyCaptured]
  · obtain ⟨-, -, h⟩ | ⟨-, h⟩ := attemptFailed_cases s <;> simp [h]
  · simp

/-- A turn of the loop emits nothing. -/
theorem settleOnce_wire (h : settleOnce s = some t) : t.wire = s.wire := by
  obtain ⟨-, -, rfl⟩ | ⟨-, -, -, rfl⟩ | ⟨-, -, rfl⟩ | ⟨-, -, rfl⟩ | ⟨-, -, -, rfl⟩ | ⟨-, -, rfl⟩ := settleOnce_cases h
  · unfold txDone; split <;> simp
  · obtain ⟨-, -, h⟩ | ⟨-, h⟩ := attemptFailed_cases s <;> simp [h]
  · rfl
  · simp [replyCaptured]
  · obtain ⟨-, -, h⟩ | ⟨-, h⟩ := attemptFailed_cases s <;> simp [h]
  · simp

/-- A turn of the loop takes no event. -/
theorem settleOnce_events (h : settleOnce s = some t) : t.events = s.events := by
  obtain ⟨-, -, rfl⟩ | ⟨-, -, -, rfl⟩ | ⟨-, -, rfl⟩ | ⟨-, -, rfl⟩ | ⟨-, -, -, rfl⟩ | ⟨-, -, rfl⟩ := settleOnce_cases h
  · unfold txDone; split <;> simp
  · obtain ⟨-, -, h⟩ | ⟨-, h⟩ := attemptFailed_cases s <;> simp [h]
  · rfl
  · simp [replyCaptured]
  · obtain ⟨-, -, h⟩ | ⟨-, h⟩ := attemptFailed_cases s <;> simp [h]
  · simp

/-! ### `Settle` -/

/-- What every turn keeps, any number of turns keep. -/
theorem settleFor_induct {P : State → Prop} (hstep : ∀ s t, P s → settleOnce s = some t → P t) :
    ∀ n s, P s → P (settleFor n s)
  | 0, _, h => h
  | n + 1, s, h => by
    unfold settleFor
    split
    · exact h
    next t ht => exact settleFor_induct hstep n t (hstep s t h ht)

/-- What every turn keeps, `Settle` keeps. -/
theorem settle_induct {P : State → Prop} (hstep : ∀ s t, P s → settleOnce s = some t → P t) (h : P s) :
    P (settle s) := settleFor_induct hstep 3 s h

/-- A state in which nothing is due is left as it is. -/
theorem settle_of_quiescent (h : settleOnce s = none) : settle s = s := by
  simp [settle, settleFor, h]

@[simp] theorem settle_cfg (s : State) : (settle s).cfg = s.cfg :=
  settle_induct (P := fun t => t.cfg = s.cfg) (fun _ _ h ht => (settleOnce_cfg ht).trans h) rfl

@[simp] theorem settle_crc (s : State) : (settle s).crc = s.crc :=
  settle_induct (P := fun t => t.crc = s.crc) (fun _ _ h ht => (settleOnce_crc ht).trans h) rfl

@[simp] theorem settle_wire (s : State) : (settle s).wire = s.wire :=
  settle_induct (P := fun t => t.wire = s.wire) (fun _ _ h ht => (settleOnce_wire ht).trans h) rfl

@[simp] theorem settle_events (s : State) : (settle s).events = s.events :=
  settle_induct (P := fun t => t.events = s.events) (fun _ _ h ht => (settleOnce_events ht).trans h) rfl

/-! ### The event handlers -/

/-- What a received byte can do (R145). -/
theorem onRx_cases (b : Byte) (s : State) :
    onRx b s = s ∨
    (s.rx = .hunt ∧ b = s.cfg.sync ∧ onRx b s = { s with rxBuf := [b], rx := .collect }) ∨
    (s.rx = .collect ∧ onRx b s =
      { s with rxBuf := s.rxBuf ++ [b], rx := if (s.rxBuf ++ [b]).length = replyLength then .full else .collect }) := by
  unfold onRx
  split
  · exact .inl rfl
  next hr =>
    split
    next h => exact .inr (.inl ⟨hr, h, rfl⟩)
    · exact .inl rfl
  next hr => exact .inr (.inr ⟨hr, rfl⟩)
  · exact .inl rfl

/-- What a byte taken by the line can do (R147). -/
theorem onTxAccept_cases (s : State) :
    (txByte s = none ∧ onTxAccept s = s) ∨
    (∃ b, txByte s = some b ∧ onTxAccept s = { s with wire := s.wire ++ [b], txIdx := s.txIdx + 1 }) := by
  unfold onTxAccept
  cases h : txByte s
  · exact .inl ⟨rfl, rfl⟩
  · exact .inr ⟨_, rfl, rfl⟩

/-- A byte is offered only in TX, and it is the next one of the frame (10_state.md R35). -/
theorem txByte_eq_some_iff (b : Byte) : txByte s = some b ↔ s.phase = .tx ∧ s.txFrame[s.txIdx]? = some b := by
  unfold txByte
  cases s.phase <;> simp

/-- A command presented in IDLE is accepted (R143). -/
theorem accept_idle (body : State → State) (h : s.phase = .idle) : accept body s = body (openCommand s) := by
  simp [accept, h]

/-- A command presented in another phase is held (R143). -/
theorem accept_busy (body : State → State) (h : s.phase ≠ .idle) : accept body s = s := by
  simp [accept, h]

end Sys2Proof.Machine
end

