-- ==== Sys2Proof/Laws/PerInstr.lean ====
section
/-! SUPPORT. The family `EncodedFields`: the fields of every command's word (30_encoding.md R80 to R84), one lemma per
command. -/

namespace Sys2Proof.Laws.EncodedFields

/-- The word of `i` holds its opcode, a zero reserved field, its byte operand and its data word. -/
def Statement (i : Instr) : Prop :=
  CmdField.op (encode i) = i.opcode ∧ CmdField.rsv (encode i) = 0 ∧
  CmdField.a8 (encode i) = i.byteOperand ∧ CmdField.d32 (encode i) = i.dataOperand

theorem crcSeed (a8 : Byte) : Statement (.crcSeed a8) := fields_of_append _ _ _ _
theorem crcUpdate (a8 : Byte) : Statement (.crcUpdate a8) := fields_of_append _ _ _ _
theorem readReg (a8 : Byte) : Statement (.readReg a8) := fields_of_append _ _ _ _
theorem readInt (a8 : Byte) : Statement (.readInt a8) := fields_of_append _ _ _ _
theorem readU32 (a8 : Byte) : Statement (.readU32 a8) := fields_of_append _ _ _ _
theorem writeReg (a8 : Byte) (d32 : Word32) : Statement (.writeReg a8 d32) := fields_of_append _ _ _ _
theorem writeChecked (a8 : Byte) (d32 : Word32) : Statement (.writeChecked a8 d32) := fields_of_append _ _ _ _

end Sys2Proof.Laws.EncodedFields
end

