-- ==== Sys2Proof/Laws/Step.lean ====
section
/-! SUPPORT. What one step can do: its cases by the event delivered, and the run over a list of events one at a time. -/

namespace Sys2Proof.Machine

variable {s t : State}

/-- What a step of a legal instance does, by the event the environment delivers (41_transaction.md R142). -/
theorem step_cases (h : step s = .next t) :
    s.cfg.legal = true ∧
    ((s.events = [] ∧ t = s) ∨
     (∃ rest, s.events = .reset :: rest ∧ t = resetState { s with events := rest }) ∨
     (∃ w why rest, s.events = .cmd w :: rest ∧ decode w = .illegal why ∧
       t = settle (accept raiseIllegalCommand { s with events := rest })) ∨
     (∃ w i u rest, s.events = .cmd w :: rest ∧ decode w = .cmd i ∧ exec i { s with events := rest } = .next u ∧
       t = settle u) ∨
     (∃ b rest, s.events = .rxByte b :: rest ∧ t = settle (onRx b { s with events := rest })) ∨
     (∃ rest, s.events = .txAccept :: rest ∧ t = settle (onTxAccept { s with events := rest })) ∨
     (∃ rest, s.events = .tick :: rest ∧ t = settle (onTick { s with events := rest }))) := by
  unfold step at h
  split at h
  next hl =>
    refine ⟨hl, ?_⟩
    unfold stepNextEvent at h
    split at h
    next he => exact .inl ⟨he, by cases h; rfl⟩
    next ev rest he =>
      cases ev with
      | reset => exact .inr (.inl ⟨rest, he, by cases h; rfl⟩)
      | cmd w =>
        simp only [stepEvent, onCmd] at h
        cases hd : decode w with
        | illegal why =>
          simp only [hd, thenSettle] at h
          exact .inr (.inr (.inl ⟨w, why, rest, he, hd, by cases h; rfl⟩))
        | cmd i =>
          simp only [hd] at h
          cases hx : exec i { s with events := rest } with
          | next u => rw [hx] at h; exact .inr (.inr (.inr (.inl ⟨w, i, u, rest, he, hd, hx, by cases h; rfl⟩)))
          | fault r => cases r
          | refused r => rw [hx] at h; cases h
      | rxByte b => exact .inr (.inr (.inr (.inr (.inl ⟨b, rest, he, by cases h; rfl⟩))))
      | txAccept => exact .inr (.inr (.inr (.inr (.inr (.inl ⟨rest, he, by cases h; rfl⟩)))))
      | tick => exact .inr (.inr (.inr (.inr (.inr (.inr ⟨rest, he, by cases h; rfl⟩)))))
  · cases h

/-- The state an instruction's meaning answers: `exec` always answers a next state. -/
theorem exec_eq_next (i : Instr) (s : State) : ∃ t, exec i s = .next t := by
  cases i <;> exact ⟨_, rfl⟩

/-- A legal instance's step on a delivered event is that event's rule. -/
theorem step_of_event {ev : Event} {rest : List Event} (hl : s.cfg.legal = true) (he : s.events = ev :: rest) :
    step s = stepEvent ev { s with events := rest } := by
  unfold step stepNextEvent
  rw [if_pos hl, he]

/-! ### The events still to come do not change what an event does -/

theorem subDone_withEvents (ok : Bool) (v : Word32) (evs : List Event) (s : State) :
    subDone ok v (withEvents evs s) = withEvents evs (subDone ok v s) := by
  have hop : (withEvents evs s).op = s.op := rfl
  have hst : (withEvents evs s).stage = s.stage := rfl
  unfold subDone
  rw [hop]
  cases s.op <;> simp only [subDoneRead, subDoneWriteReg, subDoneWriteChecked, hst]
  all_goals first | (cases ok <;> rfl) | (cases s.stage <;> cases ok <;> rfl)

theorem txDone_withEvents (evs : List Event) (s : State) : txDone (withEvents evs s) = withEvents evs (txDone s) := by
  have hk : (withEvents evs s).kind = s.kind := rfl
  unfold txDone
  rw [hk]
  cases s.kind
  · rfl
  · exact subDone_withEvents true 0 evs s

theorem attemptFailed_withEvents (evs : List Event) (s : State) :
    attemptFailed (withEvents evs s) = withEvents evs (attemptFailed s) := by
  have hd : disarm (withEvents evs s) = withEvents evs (disarm s) := rfl
  unfold attemptFailed
  simp only [withEvents_kind, withEvents_attempt, withEvents_limit, hd, subDone_withEvents]
  split <;> rfl

theorem settleOnce_withEvents (evs : List Event) (s : State) :
    settleOnce (withEvents evs s) = (settleOnce s).map (withEvents evs) := by
  unfold settleOnce
  simp only [withEvents_phase, withEvents_txIdx, withEvents_txFrame, withEvents_cfg, withEvents_timer, withEvents_rx,
    txDone_withEvents, attemptFailed_withEvents]
  cases s.phase <;> simp only
  · rfl
  · split
    · rfl
    · split <;> rfl
  · by_cases h : s.cfg.tPause ≤ s.timer <;> simp [h, withEvents]
  · split
    · simp only [Option.map_some, Option.some.injEq]
      exact subDone_withEvents true (replyValue s.rxBuf) evs { disarm s with
        diag := s.diag ++ diagRecords s.cfg s.curAddr s.rxBuf
        crcAcc := accumulateCrc s.cfg s.crcAcc s.rxBuf }
    · split <;> rfl
  · by_cases h : s.cfg.tPause ≤ s.timer <;> simp [h, withEvents, startAttempt]

theorem settleFor_withEvents (evs : List Event) : ∀ n s, settleFor n (withEvents evs s) = withEvents evs (settleFor n s)
  | 0, _ => rfl
  | n + 1, s => by
    unfold settleFor
    rw [settleOnce_withEvents]
    cases settleOnce s with
    | none => rfl
    | some t => exact settleFor_withEvents evs n t

theorem settle_withEvents (evs : List Event) (s : State) : settle (withEvents evs s) = withEvents evs (settle s) :=
  settleFor_withEvents evs 3 s

/-! ### Runs -/

/-- A step of a delivered event leaves the events after it to come. -/
theorem stepEvent_events {ev : Event} (h : stepEvent ev s = .next t) : t.events = s.events := by
  cases ev with
  | reset => cases h; rfl
  | cmd w =>
    simp only [stepEvent, onCmd] at h
    cases hd : decode w with
    | illegal why =>
      simp only [hd, thenSettle] at h
      cases h
      simp only [settle_events, accept]
      split <;> rfl
    | cmd i =>
      simp only [hd] at h
      cases i <;> (cases h; simp only [settle_events, accept]; split <;> rfl)
  | rxByte b =>
    cases h
    obtain h | ⟨-, -, h⟩ | ⟨-, h⟩ := onRx_cases b s <;> simp [h]
  | txAccept =>
    cases h
    obtain ⟨-, h⟩ | ⟨b, -, h⟩ := onTxAccept_cases s <;> simp [h]
  | tick => cases h; simp only [settle_events, onTick]; split <;> rfl

/-- The run over no events is the state itself, with none to come. -/
theorem after_nil (s : State) : after [] s = .next (withEvents [] s) := rfl

/-- The run over an event and others is the event's step and then the run over the others. -/
theorem after_cons {ev : Event} {evs : List Event} (hl : s.cfg.legal = true)
    (h : stepEvent ev (withEvents evs s) = .next t) : after (ev :: evs) s = after evs t := by
  have hs : step (withEvents (ev :: evs) s) = .next t := by
    rw [step_of_event (s := withEvents (ev :: evs) s) hl rfl]; exact h
  have ht : withEvents evs t = t := by
    have he : t.events = evs := stepEvent_events h
    subst he; rfl
  unfold after
  rw [ht, List.length_cons]
  have hc : Sys2Proof.core.step (withEvents (ev :: evs) s) = .next t := hs
  change Host.Core.run Sys2Proof.core (evs.length + 1) (withEvents (ev :: evs) s) = _
  simp only [Host.Core.run]
  rw [hc]

end Sys2Proof.Machine
end

