-- ==== Sys2Proof/Laws/Runs.lean ====
section
/-! SUPPORT. Runs over lists of events: what a step does does not depend on the events after it, so a run over two lists is one
run after the other; and the small lemmas of the lists of events the statements are said with. -/

namespace Sys2Proof.Machine

variable {s t u : State}

/-! ### A step with other events to come -/

@[simp] theorem onRx_withEvents (b : Byte) (evs : List Event) (s : State) :
    onRx b (withEvents evs s) = withEvents evs (onRx b s) := by
  unfold onRx
  simp only [withEvents_rx, withEvents_cfg, withEvents_rxBuf]
  cases s.rx with
  | off => rfl
  | hunt =>
    by_cases h : b = s.cfg.sync
    · simp only [h, if_true]; rfl
    · simp only [h, if_false]
  | collect => rfl
  | full => rfl

@[simp] theorem onTxAccept_withEvents (evs : List Event) (s : State) :
    onTxAccept (withEvents evs s) = withEvents evs (onTxAccept s) := by
  have hb : txByte (withEvents evs s) = txByte s := rfl
  unfold onTxAccept
  rw [hb]
  split <;> rfl

@[simp] theorem onTick_withEvents (evs : List Event) (s : State) :
    onTick (withEvents evs s) = withEvents evs (onTick s) := by
  unfold onTick
  rw [withEvents_phase]
  split <;> rfl

/-- A meaning does the same whatever events are to come. -/
theorem exec_withEvents (evs : List Event) (i : Instr) (h : exec i s = .next t) :
    exec i (withEvents evs s) = .next (withEvents evs t) := by
  cases i <;> (cases h; refine congrArg Host.Outcome.next ?_; unfold accept; rw [withEvents_phase]; split <;> rfl)

/-- An event does the same whatever events are to come. -/
theorem stepEvent_withEvents (evs : List Event) {ev : Event} (h : stepEvent ev s = .next t) :
    stepEvent ev (withEvents evs s) = .next (withEvents evs t) := by
  cases ev with
  | reset => cases h; rfl
  | rxByte b => cases h; simp only [stepEvent, onRx_withEvents, settle_withEvents]
  | txAccept => cases h; simp only [stepEvent, onTxAccept_withEvents, settle_withEvents]
  | tick => cases h; simp only [stepEvent, onTick_withEvents, settle_withEvents]
  | cmd w =>
    simp only [stepEvent, onCmd] at h ⊢
    cases hd : decode w with
    | illegal why =>
      simp only [hd, thenSettle] at h ⊢
      cases h
      rw [← settle_withEvents]
      refine congrArg (fun v => Host.Outcome.next (settle v)) ?_
      unfold accept
      rw [withEvents_phase]
      split <;> rfl
    | cmd i =>
      simp only [hd] at h ⊢
      obtain ⟨v, hv⟩ := exec_eq_next i s
      rw [hv] at h
      rw [exec_withEvents evs i hv]
      cases h
      simp only [thenSettle, settle_withEvents]

/-- Every event of a legal instance goes on. -/
theorem stepEvent_eq_next (ev : Event) (s : State) : ∃ t, stepEvent ev s = .next t := by
  cases ev with
  | reset => exact ⟨_, rfl⟩
  | rxByte b => exact ⟨_, rfl⟩
  | txAccept => exact ⟨_, rfl⟩
  | tick => exact ⟨_, rfl⟩
  | cmd w =>
    simp only [stepEvent, onCmd]
    cases decode w with
    | illegal why => exact ⟨_, rfl⟩
    | cmd i => obtain ⟨v, hv⟩ := exec_eq_next i s; simp only [hv, thenSettle]; exact ⟨_, rfl⟩

/-- No event changes the configuration (10_state.md R20). -/
theorem stepEvent_cfg {ev : Event} (h : stepEvent ev s = .next t) : t.cfg = s.cfg := by
  cases ev with
  | reset => cases h; rfl
  | rxByte b =>
    cases h
    obtain h | ⟨-, -, h⟩ | ⟨-, h⟩ := onRx_cases b s <;> simp [h]
  | txAccept =>
    cases h
    obtain ⟨-, h⟩ | ⟨b, -, h⟩ := onTxAccept_cases s <;> simp [h]
  | tick => cases h; simp only [settle_cfg, onTick]; split <;> rfl
  | cmd w =>
    simp only [stepEvent, onCmd] at h
    cases hd : decode w with
    | illegal why =>
      simp only [hd, thenSettle] at h
      cases h
      simp only [settle_cfg, accept]
      split <;> rfl
    | cmd i =>
      simp only [hd] at h
      cases i <;> (cases h; simp only [settle_cfg, accept]; split <;> rfl)

/-! ### Runs -/

/-- A run starts from the state alone, not from the events that were to come in it. -/
@[simp] theorem after_withEvents (evs es : List Event) (s : State) : after evs (withEvents es s) = after evs s := rfl

/-- The run over an event and others, from the event's step without others to come. -/
theorem after_cons_of_stepEvent {ev : Event} (evs : List Event) (hl : s.cfg.legal = true)
    (h : stepEvent ev s = .next t) : after (ev :: evs) s = after evs t := by
  rw [after_cons hl (stepEvent_withEvents evs h), after_withEvents]

/-- The run over two lists of events is the run over the second after the run over the first. -/
theorem after_append {as : List Event} (bs : List Event) (hl : s.cfg.legal = true) (h : after as s = .next u) :
    after (as ++ bs) s = after bs u := by
  induction as generalizing s with
  | nil => cases h; rfl
  | cons ev as ih =>
    obtain ⟨v, hv⟩ := stepEvent_eq_next ev s
    rw [after_cons_of_stepEvent as hl hv] at h
    rw [List.cons_append, after_cons_of_stepEvent (as ++ bs) hl hv]
    exact ih (by rw [stepEvent_cfg hv]; exact hl) h

/-- A run over any events goes on in a legal instance. -/
theorem after_eq_next (evs : List Event) (hl : s.cfg.legal = true) : ∃ t, after evs s = .next t := by
  induction evs generalizing s with
  | nil => exact ⟨_, rfl⟩
  | cons ev evs ih =>
    obtain ⟨v, hv⟩ := stepEvent_eq_next ev s
    rw [after_cons_of_stepEvent evs hl hv]
    exact ih (by rw [stepEvent_cfg hv]; exact hl)

/-! ### Lists of events -/

@[simp] theorem receivedBytes_nil : receivedBytes [] = [] := rfl
@[simp] theorem receivedBytes_rxByte (b : Byte) (evs : List Event) :
    receivedBytes (.rxByte b :: evs) = b :: receivedBytes evs := rfl
@[simp] theorem receivedBytes_cmd (w : CmdWord) (evs : List Event) :
    receivedBytes (.cmd w :: evs) = receivedBytes evs := rfl
@[simp] theorem receivedBytes_txAccept (evs : List Event) : receivedBytes (.txAccept :: evs) = receivedBytes evs := rfl
@[simp] theorem receivedBytes_tick (evs : List Event) : receivedBytes (.tick :: evs) = receivedBytes evs := rfl
@[simp] theorem receivedBytes_reset (evs : List Event) : receivedBytes (.reset :: evs) = receivedBytes evs := rfl

@[simp] theorem accepts_zero : accepts 0 = [] := rfl
@[simp] theorem accepts_succ (n : Nat) : accepts (n + 1) = .txAccept :: accepts n := rfl
@[simp] theorem ticks_zero : ticks 0 = [] := rfl
@[simp] theorem ticks_succ (n : Nat) : ticks (n + 1) = .tick :: ticks n := rfl
@[simp] theorem receives_nil : receives [] = [] := rfl
@[simp] theorem receives_cons (b : Byte) (bs : List Byte) : receives (b :: bs) = .rxByte b :: receives bs := rfl

@[simp] theorem retries_nil (c : Config) : retries c [] = [] := rfl
@[simp] theorem retries_cons (c : Config) (f : FailedAttempt) (fs : List FailedAttempt) :
    retries c (f :: fs) = f.events c ++ ticks c.tPause ++ retries c fs := rfl

@[simp] theorem cutCopies_nil (frame : List Byte) : cutCopies frame [] = [] := rfl
@[simp] theorem cutCopies_cons (frame : List Byte) (k : Nat) (ks : List Nat) :
    cutCopies frame (k :: ks) = frame.take k ++ cutCopies frame ks := rfl

/-! ### The counter -/

/-- Bits [7:0] of a reply's payload are its byte 10 (30_encoding.md R93, 43_write.md R203). -/
theorem lowByte_replyValue (r : List Byte) : lowByte (replyValue r) = r.getD 10 0 := by
  have last (b0 b1 b2 b3 : Byte) : (b0 ++ b1 ++ b2 ++ b3).extractLsb' 0 8 = b3 := by
    apply BitVec.eq_of_getLsbD_eq
    intro i hi
    simp only [BitVec.getLsbD_extractLsb', BitVec.getLsbD_append, hi, Nat.zero_add, if_true, decide_true, Bool.true_and]
  exact last _ _ _ _

end Sys2Proof.Machine
end

