-- ==== Sys2Proof/Tests/Slice0.lean ====
section
/-! SUPPORT. The model's own tests: the WellFormed smoke, words written out from the spec's encodings, vectors of
95_test_vectors.md, one step at a time, and for every statement with hypotheses a witness that meets them. -/

namespace Sys2Proof.Tests

open Sys2Proof Sys2Proof.Machine

set_option maxRecDepth 20000

/-! ### WellFormed refuses a register number of 0x80 or more (30_encoding.md R82) -/

theorem test_wellFormed_crc_takes_any_byte :
    (Instr.crcSeed 0xFF).wellFormed = true ∧ (Instr.crcUpdate 0x80).wellFormed = true := by decide
theorem test_illFormed_readReg : (Instr.readReg 0x80).wellFormed = false := by decide
theorem test_illFormed_readInt : (Instr.readInt 0xFF).wellFormed = false := by decide
theorem test_illFormed_readU32 : (Instr.readU32 0x82).wellFormed = false := by decide
theorem test_illFormed_writeReg : (Instr.writeReg 0x80 0xFFFFFFFF).wellFormed = false := by decide
theorem test_illFormed_writeChecked : (Instr.writeChecked 0x90 1).wellFormed = false := by decide

/-! ### Decoding: words bit by bit from opcode_table.json's patterns (OP, RSV, A8, D32), and 95_test_vectors.md §3.1 -/

theorem test_decode_crcSeed :
    decode 0b000100001010101100000000000000000000000000000000 = .cmd (.crcSeed 0xAB) := by decide
theorem test_decode_crcUpdate :
    decode 0b001000000101101000000000000000000000000000000000 = .cmd (.crcUpdate 0x5A) := by decide
theorem test_decode_readReg :
    decode 0b001100000111111100000000000000000000000000000000 = .cmd (.readReg 0x7F) := by decide
theorem test_decode_readInt :
    decode 0b010000000000011000000000000000000000000000000000 = .cmd (.readInt 0x06) := by decide
theorem test_decode_readU32 :
    decode 0b010100000000001000000000000000000000000000000000 = .cmd (.readU32 0x02) := by decide
theorem test_decode_writeReg :
    decode 0b011000000111111111111111111111111111111111111111 = .cmd (.writeReg 0x7F 0xFFFFFFFF) := by decide
theorem test_decode_writeChecked :
    decode 0b011100000001000000000000000000010001111100010000 = .cmd (.writeChecked 0x10 0x00011F10) := by decide
/-- One illegal word for each condition of R85, with the zero word. -/
theorem test_decode_refuses :
    [0x000000000000, 0x800000000000, 0xF00000000000, 0x1F0000000000, 0x308000000000, 0x6080FFFFFFFF, 0x20FF00000001,
      0x500000000001].map decode =
    [.illegal .reservedOpcode, .illegal .reservedOpcode, .illegal .reservedOpcode, .illegal .reservedFieldSet,
      .illegal .registerNumberTooHigh, .illegal .registerNumberTooHigh, .illegal .dataFieldSet,
      .illegal .dataFieldSet] := by decide
theorem test_encode_writeChecked : encode (.writeChecked 0x10 0x00011F10) = 0x701000011F10 := by decide
theorem test_decodeTableWord : decodeTableWord 48 0x607FFFFFFFFF = some (.writeReg 0x7F 0xFFFFFFFF) := by decide
theorem test_decodeTableWord_refuses : decodeTableWord 48 0x1F0000000000 = none := by decide

/-! ### CRC and frames (95_test_vectors.md §2 and §3) -/

/-- V11, and its value under the alternative input order. -/
theorem test_crc_check_value :
    crc8 false [0x31, 0x32, 0x33, 0x34, 0x35, 0x36, 0x37, 0x38, 0x39] 0 = 0xF4 ∧
    crc8 true [0x31, 0x32, 0x33, 0x34, 0x35, 0x36, 0x37, 0x38, 0x39] 0 = 0x04 := by decide
/-- V9: a nonzero seed. -/
theorem test_crc_seeded : crc8 false [0x12] 0x34 = 0xF2 ∧ crc8 true [0x12] 0x34 = 0x73 := by decide
theorem test_readFrame : readFrame Config.atReset 0x06 = [0x05, 0x00, 0x06, 0xD2] := by decide
theorem test_writeFrame :
    writeFrame Config.atReset 0x00 0x12345678 = [0x05, 0x00, 0x80, 0x12, 0x34, 0x56, 0x78, 0x21] := by decide
/-- The reply of §3.3 whose CRC byte is wrong, with its Diag record. -/
theorem test_reply_with_bad_crc :
    replyValue [0x05, 0x00, 0x06, 0xD2, 0x05, 0xFF, 0x06, 0xFF, 0xFF, 0xFF, 0xFE, 0x96] = 0xFFFFFFFE ∧
    diagRecords Config.atReset 0x06 [0x05, 0x00, 0x06, 0xD2, 0x05, 0xFF, 0x06, 0xFF, 0xFF, 0xFF, 0xFE, 0x96] =
      [⟨0x06, 0x97, 0x96⟩] := by decide
/-- §5: a wrap, and no change. -/
theorem test_verified : verified 0xFF 0x00 = true ∧ verified 0x10 0x0F = true ∧ verified 0x07 0x07 = false := by decide
/-- R182's example: the value −2. -/
theorem test_resultValue_signed : resultValue .readInt 0xFFFFFFFE = -2 ∧ resultValue .readU32 0xFFFFFFFE = 4294967294 := by
  decide
/-- X8: the earliest sync byte starts the frame. -/
theorem test_rx_earliest_sync :
    (rxReceive [0x01, 0x05, 0x00, 0x05, 0x00, 0x02, 0xCE, 0x05, 0xFF, 0x02, 0x00, 0x00, 0x00, 0x07, 0xD4]
      { State.reset with rx := .hunt }).rxBuf =
    [0x05, 0x00, 0x05, 0x00, 0x02, 0xCE, 0x05, 0xFF, 0x02, 0x00, 0x00, 0x00] := by decide
/-- R96 with a comment, and R97. -/
theorem test_assembler :
    assembleText Config.atReset "WRITE_CHECKED 0x10, 0x00011F10 ; P3".toList = some [0x701000011F10] ∧
    assembleText Config.atReset "CRC8 0x00, 0x31".toList = some [0x100000000000, 0x203100000000] ∧
    assembleText Config.atReset "READ_REG 0x80".toList = none := by decide

/-! ### One step -/

/-- The state a step or a meaning goes on to, for tests whose outcome is a next state. -/
def nextOr (s : State) : Host.Outcome State Fault Refusal → State
  | .next t => t
  | .fault _ => s
  | .refused _ => s

/-- The state after one step of `s` on the event `ev`. -/
def stepOn (ev : Event) (s : State) : State := nextOr s (step (withEvents [ev] s))

/-- A READ_REG 0x02 in CAPTURE with eleven bytes of its reply, one tick before the deadline (program P8). -/
def capturing : State :=
  { State.reset with
    phase := .capture, op := .readReg, addr := 0x02, stage := .main, kind := .read, curAddr := 0x02
    txFrame := [0x05, 0x00, 0x02, 0xCE], txIdx := 4, timer := 5, rx := .collect
    rxBuf := [0x05, 0x00, 0x02, 0xCE, 0x05, 0xFF, 0x02, 0x00, 0x00, 0x00, 0x07] }

/-- The same command in PAUSE with the whole reply received (program P9). -/
def paused : State :=
  { capturing with
    phase := .pause, timer := 1, rx := .full
    rxBuf := [0x05, 0x00, 0x02, 0xCE, 0x05, 0xFF, 0x02, 0x00, 0x00, 0x00, 0x07, 0xD4] }

/-- A WRITE_REG 0x00, 0x41 with seven bytes accepted, one tick before the deadline (program P5). -/
def writing : State :=
  { State.reset with
    phase := .tx, op := .writeReg, data := 0x41, stage := .main, kind := .write
    txFrame := [0x05, 0x00, 0x80, 0x00, 0x00, 0x00, 0x41, 0xFD], txIdx := 7, timer := 3 }

/-- A READ_INT 0x06 in BACKOFF before its second attempt (program P2). -/
def backingOff : State :=
  { State.reset with
    phase := .backoff, op := .readInt, addr := 0x06, stage := .main, kind := .read, curAddr := 0x06, limit := 10
    attempt := 2, txFrame := [0x05, 0x00, 0x06, 0xD2], txIdx := 4 }

/-- A WRITE_CHECKED 0x10, 0x00011F10 in CAPTURE of stage AFTER, with eleven bytes of the second counter reply (P3). -/
def comparing : State :=
  { capturing with
    op := .writeChecked, addr := 0x10, data := 0x00011F10, stage := .after, limit := 10, before := 0x07
    rxBuf := [0x05, 0x00, 0x02, 0xCE, 0x05, 0xFF, 0x02, 0x00, 0x00, 0x00, 0x08] }

/-- 40_crc.md R123's example. -/
theorem test_step_crcSeed :
    (stepOn (.cmd 0x10AB00000000) State.reset).crc = 0xAB ∧
    (stepOn (.cmd 0x10AB00000000) State.reset).respData = 0x000000AB := by decide
/-- R124's example. -/
theorem test_step_crcUpdate : (stepOn (.cmd 0x200100000000) State.reset).respData = 0x00000007 := by decide
theorem test_step_readReg :
    (stepOn (.cmd 0x300600000000) State.reset).txFrame = [0x05, 0x00, 0x06, 0xD2] ∧
    (stepOn (.cmd 0x300600000000) State.reset).limit = 1 := by decide
theorem test_step_readInt : (stepOn (.cmd 0x400600000000) State.reset).limit = 10 := by decide
theorem test_step_readU32 : (stepOn (.cmd 0x500600000000) State.reset).rx = .hunt := by decide
theorem test_step_writeReg :
    (stepOn (.cmd 0x600000000041) State.reset).txFrame = [0x05, 0x00, 0x80, 0x00, 0x00, 0x00, 0x41, 0xFD] := by decide
theorem test_step_writeChecked :
    (stepOn (.cmd 0x701000011F10) State.reset).txFrame = [0x05, 0x00, 0x02, 0xCE] ∧
    (stepOn (.cmd 0x701000011F10) State.reset).stage = .before := by decide
/-- Program P8: the twelfth byte in time, and the deadline without it. -/
theorem test_step_capture :
    (stepOn (.rxByte 0xD4) capturing).respData = 0x00000007 ∧ (stepOn .tick capturing).respStatus = 1 := by decide
/-- Program P5: the eighth byte in time, and the deadline without it. -/
theorem test_step_write :
    (stepOn .txAccept writing).wire = [0xFD] ∧ (stepOn .txAccept writing).respStatus = 0 ∧
    (stepOn .tick writing).respStatus = 1 := by decide
/-- Program P3's last step. -/
theorem test_step_compare : (stepOn (.rxByte 0xF9) comparing).respData = 1 := by decide
/-- Program P7: Reset keeps the wire history. -/
theorem test_step_reset :
    (stepOn .reset { writing with wire := [0x05, 0x00, 0x80] }).wire = [0x05, 0x00, 0x80] ∧
    (stepOn .reset writing).phase = .idle := by decide
/-- A command word placed by `withFetchWord` runs as the first command after reset. -/
theorem test_withFetchWord :
    (nextOr State.reset (step (State.reset.withFetchWord 48 0x10AB00000000))).crc = 0xAB := by decide

/-! ### Witnesses: every statement's hypotheses can be met -/

theorem inv_reset : Inv State.reset := by constructor <;> decide
theorem inv_capturing : Inv capturing := by constructor <;> decide
theorem inv_paused : Inv paused := by constructor <;> decide
theorem inv_writing : Inv writing := by constructor <;> decide
theorem inv_backingOff : Inv backingOff := by constructor <;> decide
theorem inv_comparing : Inv comparing := by constructor <;> decide

/-- Delivering events keeps the invariant: no clause reads them. -/
theorem inv_withEvents (evs : List Event) {s : State} (h : Inv s) : Inv (withEvents evs s) :=
  ⟨h.legal, h.idle_clear, h.armed_phase, h.stays_armed, h.waits_for_read, h.backoff_attempt, h.full_iff, h.buf_bound,
    h.buf_empty, h.buf_started, h.buf_head, h.frame_of_stage, h.tx_unfinished, h.timer_tx, h.timer_pause,
    h.timer_capture, h.capture_open, h.attempt_range, h.stage_of_op, h.read_target, h.response_closed,
    h.status_produced⟩

/-- A reply (95_test_vectors.md §3.3). -/
def reply : List Byte := [0x05, 0x00, 0x02, 0xCE, 0x05, 0xFF, 0x02, 0x00, 0x00, 0x00, 0x07, 0xD4]

theorem witness_DecodeOfEncodeIsIdentity : (Instr.writeChecked 0x7F 0xFFFFFFFF).wellFormed = true := by decide
theorem witness_EveryWordIsOneCommandOrIllegal :
    decode 0x307F00000000 = .cmd (.readReg 0x7F) ∧ decode 0x700000000001 = .cmd (.writeChecked 0 1) ∧
    decode 0x100000000000 = .cmd (.crcSeed 0) := by decide
theorem witness_DecodeRefusesExactlyTheIllegalWords :
    IllegalBits 0x0FFFFFFFFFFF ∧ IllegalBits 0x800000000000 ∧ IllegalBits 0x710000000000 ∧
    IllegalBits 0x308000000000 := by decide
theorem witness_DecodeRefusesExactlyTheIllegalWords_edges :
    IllegalBits 0x708000000000 ∧ IllegalBits 0x100000000001 ∧ IllegalBits 0x500000000001 ∧
    ¬ IllegalBits 0x20FF00000000 ∧ ¬ IllegalBits 0x607FFFFFFFFF := by decide
theorem witness_AssemblerFollowsTheListing :
    ((0 : Int) ≤ 255 ∧ (255 : Int) ≤ 255) ∧ ¬ ((0 : Int) ≤ 256 ∧ (256 : Int) ≤ 255) ∧
    ((0 : Int) ≤ 127 ∧ (127 : Int) ≤ 127 ∧ -(2 ^ 31) ≤ (-(2 ^ 31) : Int) ∧ (-(2 ^ 31) : Int) ≤ 2 ^ 32 - 1) ∧
    ¬ ((0 : Int) ≤ 128 ∧ (128 : Int) ≤ 127) ∧ ¬ ((2 ^ 32 : Int) ≤ 2 ^ 32 - 1) ∧
    (∀ b ∈ [(0 : Int), 255, 0], 0 ≤ b ∧ b ≤ 255) ∧ ¬ (∀ b ∈ [(0 : Int), 256], 0 ≤ b ∧ b ≤ 255) := by decide
theorem witness_StepRunsTheDecodedCommand :
    (withEvents [.cmd 0x200100000000] State.reset).cfg.legal = true ∧
    decode 0x200100000000 = .cmd (.crcUpdate 0x01) ∧ (∃ t, exec (.crcUpdate 0x01) State.reset = .next t) ∧
    decodeTableWord 48 0x200100000000 = some (.crcUpdate 0x01) ∧ Inv State.reset :=
  ⟨by decide, by decide, ⟨_, rfl⟩, by decide, inv_reset⟩
theorem witness_StepGoesOnExactlyInLegalConfigurations :
    State.reset.cfg.legal = true ∧ Config.legal { Config.atReset with maxTries := 255, replyCrcFrom := 4 } = true ∧
    Config.legal { Config.atReset with maxTries := 256 } = false ∧ Config.legal { Config.atReset with tTx := 0 } = false := by
  decide
theorem witness_SettleReachesQuiescence : capturing.cfg.legal = true ∧ 3 ≤ 4 := by decide
theorem witness_BusyBlockHoldsEveryCommand :
    writing.phase ≠ .idle ∧ Inv (withEvents [.cmd 0x10AB00000000] writing) :=
  ⟨by decide, inv_withEvents _ inv_writing⟩
theorem witness_IllegalWordCompletesAtOnce :
    Inv (withEvents [.cmd 0x300200000001] State.reset) ∧ (withEvents [.cmd 0x300200000001] State.reset).phase = .idle ∧
    IllegalBits 0x300200000001 ∧ ¬ IllegalBits 0x300200000000 :=
  ⟨inv_withEvents _ inv_reset, by decide, by decide, by decide⟩
theorem witness_CommandsLeaveTheRestUnchanged :
    (∃ t, exec (.crcSeed 0xAB) State.reset = .next t) ∧ (∃ t, exec (.crcUpdate 0xAB) writing = .next t) ∧
    (∃ t, exec (.readReg 0x06) State.reset = .next t) ∧ (∃ t, exec (.writeReg 0x06 1) State.reset = .next t) :=
  ⟨⟨_, rfl⟩, ⟨_, rfl⟩, ⟨_, rfl⟩, ⟨_, rfl⟩⟩
theorem witness_CrcSeedLoadsTheRegister : Inv State.reset ∧ State.reset.phase = .idle := ⟨inv_reset, rfl⟩
theorem witness_CrcUpdateFeedsOneByte : Inv { State.reset with crc := 0x5A } ∧ State.reset.phase = .idle :=
  ⟨by constructor <;> decide, rfl⟩
theorem witness_CrcByteIsXorThenEightShifts :
    ∀ i, i < 8 → (0x8C : Byte).getLsbD i = (0x31 : Byte).getLsbD (7 - i) := by decide
theorem witness_Crc8SequenceComputesCrc8 : Inv State.reset ∧ State.reset.phase = .idle := ⟨inv_reset, rfl⟩
theorem witness_SealedMessagesHaveCrcZero :
    [0x05, 0x00, 0x02, 0xCE] = [0x05, 0x00, 0x02] ++ [crc8 false [0x05, 0x00, 0x02] 0] ∧
    Config.atReset.crcReflectIn = false ∧ readFrame Config.atReset 0x02 = [0x05, 0x00, 0x02, 0xCE] ∧
    writeFrame Config.atReset 0x00 0x41 = [0x05, 0x00, 0x80, 0x00, 0x00, 0x00, 0x41, 0xFD] := by decide
theorem witness_CrcDetectsEverySingleBitFlip :
    ([0x05, 0x00, 0x02] : List Byte)[2]? = some 0x02 ∧ ([0x05] : List Byte)[0]? = some 0x05 ∧ 0 < 8 ∧ 7 < 8 := by decide
theorem witness_CrcChangeIsTheErrorPatternsCrc :
    ([0x00, 0x80] : List Byte).length = ([0x12, 0x34] : List Byte).length := by decide
theorem witness_CrcRegisterIsTheHostsAlone :
    (∃ t, step (withEvents [.cmd 0x10AB00000000] State.reset) = .next t) ∧
    (∃ t, step (withEvents [.rxByte 0xD4] capturing) = .next t) ∧
    (∀ w b rest, (withEvents [.rxByte 0xD4] capturing).events = .cmd w :: rest →
      decode w ≠ .cmd (.crcSeed b) ∧ decode w ≠ .cmd (.crcUpdate b)) ∧
    (∀ rest, (withEvents [.rxByte 0xD4] capturing).events ≠ .reset :: rest) :=
  ⟨⟨_, rfl⟩, ⟨_, rfl⟩, (by intro w b rest h; cases h), (by intro rest h; cases h)⟩
theorem witness_ByteTwoTellsTheFrameLength : Config.atReset.writeBit = 0x80 := by decide
theorem witness_ReplyValueIsBytesSevenToTenBigEndian :
    reply[7]? = some 0x00 ∧ reply[8]? = some 0x00 ∧ reply[9]? = some 0x00 ∧ reply[10]? = some 0x07 := by decide
theorem witness_RxUnitHoldsTheEarliestSyncWindow :
    ({ State.reset with rx := .hunt } : State).rx = .hunt ∧ ({ State.reset with rx := .hunt } : State).rxBuf = [] ∧
    (rxReceive reply { State.reset with rx := .hunt }).rx = .full ∧
    (rxReceive (reply.take 11) { State.reset with rx := .hunt }).rx = .collect := by decide
theorem witness_BytesOutsideAnArmedWindowAreLost :
    Inv State.reset ∧ Inv backingOff ∧ Inv writing ∧ State.reset.rx = .off ∧ backingOff.rx = .off ∧ writing.rx = .off ∧
    Inv (withEvents [.rxByte 0x05] writing) :=
  ⟨inv_reset, inv_backingOff, inv_writing, rfl, rfl, rfl, inv_withEvents _ inv_writing⟩
theorem witness_ReplyCrcByteNeverChangesTheOutcome :
    (Inv (withEvents [.rxByte 0xD4] capturing) ∧ capturing.phase = .capture ∧ capturing.rxBuf.length = 11 ∧
      ∃ t, step (withEvents [.rxByte 0xD4] capturing) = .next t) ∧
    (Inv (withEvents [.tick] paused) ∧ paused.rx = .full ∧ ∃ t, step (withEvents [.tick] paused) = .next t) :=
  ⟨⟨inv_withEvents _ inv_capturing, rfl, rfl, ⟨_, rfl⟩⟩, ⟨inv_withEvents _ inv_paused, rfl, ⟨_, rfl⟩⟩⟩
theorem witness_ReadCommandsStartTheirFirstAttempt : State.reset.phase = .idle := rfl
theorem witness_WriteRegStartsItsFrame : State.reset.phase = .idle := rfl
theorem witness_WriteCheckedStartsWithTheCounter : State.reset.phase = .idle := rfl
/-- A reply in CAPTURE, its last byte after the last tick but one, and noise before it. -/
def lateAnswer : Answer := ⟨[0x00], 3, [0xAA, 0x05], reply.tail.take 10, 5, reply.drop 11⟩
/-- A reply that has come whole before the frame is accepted. -/
def earlyAnswer : Answer := ⟨reply, 0, [], [], 0, []⟩

theorem witness_ReadRegReturnsTheReply :
    Inv State.reset ∧ State.reset.phase = .idle ∧ (0x06 : Byte).getLsbD 7 = false ∧
    lateAnswer.Brings State.reset.cfg [0x00, 0xAA] reply ∧ earlyAnswer.Brings State.reset.cfg [] reply :=
  ⟨inv_reset, rfl, by decide, by decide, by decide⟩

/-- The state of `paused` in TX, with the last byte of its Read frame to go, and no pause to come. -/
def fullInTx : State := { paused with cfg := { Config.atReset with tPause := 0 }, phase := .tx, txIdx := 3, timer := 3 }
theorem inv_fullInTx : Inv fullInTx := by constructor <;> decide
/-- `comparing` at its first counter read. -/
def counting : State := { comparing with stage := .before }
theorem inv_counting : Inv counting := by constructor <;> decide

theorem witness_CapturedReplyEndsTheSubTransaction :
    (Inv (withEvents [.rxByte 0xD4] capturing) ∧ capturing.kind = .read ∧ capturing.phase = .capture ∧
      capturing.rxBuf.length = 11) ∧
    (Inv (withEvents [.rxByte 0xD4] counting) ∧ counting.phase = .capture ∧ counting.rxBuf.length = 11) ∧
    (Inv (withEvents [.rxByte 0xD4] comparing) ∧ comparing.phase = .capture ∧ comparing.rxBuf.length = 11) ∧
    (Inv (withEvents [.tick] paused) ∧ paused.kind = .read ∧ paused.phase = .pause ∧ paused.rx = .full ∧
      paused.timer + 1 = paused.cfg.tPause) ∧
    (Inv (withEvents [.txAccept] fullInTx) ∧ fullInTx.kind = .read ∧ fullInTx.phase = .tx ∧ fullInTx.rx = .full ∧
      fullInTx.txIdx + 1 = fullInTx.txFrame.length ∧ fullInTx.txFrame[fullInTx.txIdx]? = some 0xCE ∧
      fullInTx.cfg.tPause = 0) ∧
    Inv (withEvents [.rxByte 0x05] fullInTx) :=
  ⟨⟨inv_withEvents _ inv_capturing, rfl, rfl, rfl⟩, ⟨inv_withEvents _ inv_counting, rfl, rfl⟩,
    ⟨inv_withEvents _ inv_comparing, rfl, rfl⟩, ⟨inv_withEvents _ inv_paused, rfl, rfl, rfl, rfl⟩,
    ⟨inv_withEvents _ inv_fullInTx, rfl, rfl, rfl, rfl, rfl, rfl⟩, inv_withEvents _ inv_fullInTx⟩
/-- Program P9: the reply that came in PAUSE is taken at the tick that ends it. -/
theorem test_step_pause_takes_reply :
    (stepOn .tick paused).respData = 0x00000007 ∧ (stepOn .tick paused).respStatus = 0 := by decide
/-- A short write while a whole reply arrives, and a reply that lacks its last byte. -/
def someFailures : List FailedAttempt := [.shortWrite reply 3, .noReply [0x00] (reply.take 3) ((reply.drop 3).take 8)]

/-- Fewer than twelve bytes hold no whole reply. -/
theorem noWholeReply_of_short (c : Config) (bs : List Byte) (h : bs.length < 12) : NoWholeReply c bs := by
  intro i _; omega

theorem someFailures_fail : ∀ f ∈ someFailures, f.Fails State.reset.cfg := by
  intro f hf
  simp only [someFailures, List.mem_cons, List.not_mem_nil, or_false] at hf
  obtain rfl | rfl := hf
  · decide
  · intro i hi
    match i with
    | 0 => exact absurd hi (by decide)
    | i + 1 => change 12 < i + 1 + 12; omega

/-- The failed attempts before the last of ten. -/
def nineFailures : List FailedAttempt := List.replicate 9 (.shortWrite [] 0)

theorem nineFailures_fail : ∀ f ∈ nineFailures, f.Fails State.reset.cfg := by
  intro f hf
  rw [List.eq_of_mem_replicate hf]
  decide

theorem witness_RetriedReadReturnsTheLastReply :
    Inv State.reset ∧ State.reset.phase = .idle ∧ (0x7F : Byte).getLsbD 7 = false ∧
    someFailures.length < State.reset.cfg.maxTries ∧
    (∀ f ∈ someFailures, f.Fails State.reset.cfg) ∧
    nineFailures.length < State.reset.cfg.maxTries ∧ (∀ f ∈ nineFailures, f.Fails State.reset.cfg) ∧
    lateAnswer.Brings State.reset.cfg [0x00, 0xAA] reply :=
  ⟨inv_reset, rfl, by decide, by decide, someFailures_fail, by decide, nineFailures_fail, by decide⟩

theorem witness_FailedAttemptIsRetriedOrEnds :
    (Inv (withEvents [.tick] { backingOff with phase := .tx, rx := .hunt, txIdx := 3, timer := 3 })) ∧
    (Inv (withEvents [.tick] capturing) ∧ capturing.kind = .read ∧ capturing.phase = .capture ∧
      capturing.timer + 1 = capturing.cfg.tCapture ∧ ¬ capturing.attempt < capturing.limit) ∧
    (Inv (withEvents [.tick] comparing) ∧ comparing.timer + 1 = comparing.cfg.tCapture ∧
      comparing.attempt < comparing.limit) ∧
    (Inv (withEvents [.tick] { comparing with attempt := 10 })) ∧
    (Inv (withEvents [.tick] { backingOff with timer := 1 }) ∧ backingOff.phase = .backoff ∧
      1 + 1 = backingOff.cfg.tPause) ∧
    (Inv (withEvents [.tick] { fullInTx with op := .readInt, limit := 10 }) ∧ fullInTx.timer + 1 = fullInTx.cfg.tTx)∧
    (Inv (withEvents [.tick] { paused with timer := 0 }) ∧ paused.rx = .full ∧ 0 + 1 < paused.cfg.tPause) ∧
    (Inv (withEvents [.tick] { capturing with timer := 4 }) ∧ 4 + 1 < capturing.cfg.tCapture) ∧
    (Inv (withEvents [.tick] { backingOff with timer := 0 }) ∧ 0 + 1 < backingOff.cfg.tPause) ∧
    (Inv (withEvents [.tick] { paused with rx := .hunt, rxBuf := [] }) ∧ paused.timer + 1 = paused.cfg.tPause) :=
  ⟨inv_withEvents _ (by constructor <;> decide), ⟨inv_withEvents _ inv_capturing, rfl, rfl, rfl, by decide⟩,
    ⟨inv_withEvents _ inv_comparing, rfl, by decide⟩, inv_withEvents _ (by constructor <;> decide),
    ⟨inv_withEvents _ (by constructor <;> decide), rfl, rfl⟩, ⟨inv_withEvents _ (by constructor <;> decide), rfl⟩,
    ⟨inv_withEvents _ (by constructor <;> decide), rfl, by decide⟩, ⟨inv_withEvents _ (by constructor <;> decide), by decide⟩,
    ⟨inv_withEvents _ (by constructor <;> decide), by decide⟩, inv_withEvents _ (by constructor <;> decide), rfl⟩
theorem witness_UnansweredReadTimesOut :
    Inv State.reset ∧ State.reset.phase = .idle ∧ (0x00 : Byte).getLsbD 7 = false ∧
    nineFailures.length + 1 = State.reset.cfg.maxTries ∧
    (∀ f ∈ nineFailures, f.Fails State.reset.cfg) ∧
    (FailedAttempt.noReply (reply.take 11) [] []).Fails State.reset.cfg :=
  ⟨inv_reset, rfl, by decide, by decide, nineFailures_fail, noWholeReply_of_short _ _ (by decide)⟩
theorem witness_PartialReplyNeverBecomesData :
    Inv State.reset ∧ State.reset.phase = .idle ∧ (0x02 : Byte).getLsbD 7 = false ∧
    NoWholeReply State.reset.cfg (reply.take 11) :=
  ⟨inv_reset, rfl, by decide, noWholeReply_of_short _ _ (by decide)⟩
theorem witness_ShortReadFrameTimesOut :
    Inv State.reset ∧ State.reset.phase = .idle ∧ (0x02 : Byte).getLsbD 7 = false ∧ 0 < 4 ∧ 3 < 4 :=
  ⟨inv_reset, rfl, by decide, by decide, by decide⟩
/-- The line takes eight bytes with ticks among them, and with a byte received. -/
def slowWrite : List Event := .tick :: accepts 5 ++ [.tick, .rxByte 0x05, .tick] ++ accepts 3
/-- The line takes seven bytes, and the time of TX runs out. -/
def shortWrite : List Event := accepts 3 ++ [.tick] ++ accepts 4 ++ ticks 3

theorem slowWrite_whole : WholeWrite State.reset.cfg slowWrite :=
  ⟨by simp [LineEvents, slowWrite, accepts], by decide, by decide, by decide⟩
theorem shortWrite_short : ShortWrite State.reset.cfg 7 shortWrite :=
  ⟨by simp [LineEvents, shortWrite, accepts, ticks], by decide, by decide, by decide, by decide⟩

theorem witness_WriteRegCompletesOrTimesOut :
    Inv State.reset ∧ State.reset.phase = .idle ∧ (0x00 : Byte).getLsbD 7 = false ∧
    WholeWrite State.reset.cfg slowWrite ∧ WholeWrite State.reset.cfg (accepts 8) ∧
    ShortWrite State.reset.cfg 7 shortWrite ∧ ShortWrite State.reset.cfg 0 (ticks 4) :=
  ⟨inv_reset, rfl, by decide, slowWrite_whole, ⟨by simp [LineEvents, accepts], by decide, by decide, by decide⟩,
    shortWrite_short, by simp [LineEvents, ticks], by decide, by decide, by decide, by decide⟩

/-- A WRITE_CHECKED at its Write frame, as `writing` is. -/
def writingChecked : State := { writing with op := .writeChecked, stage := .write }
theorem inv_writingChecked : Inv writingChecked := by constructor <;> decide

theorem witness_WriteFrameIsSentOrTimesOut :
    (Inv (withEvents [.txAccept] { writing with txIdx := 6 }) ∧ 6 + 1 < 8) ∧
    (Inv (withEvents [.txAccept] writing) ∧ writing.phase = .tx ∧ writing.kind = .write ∧ writing.op = .writeReg ∧
      writing.txFrame[writing.txIdx]? = some 0xFD ∧ writing.txIdx + 1 = 8) ∧
    (Inv (withEvents [.txAccept] writingChecked) ∧ writingChecked.op = .writeChecked ∧ writingChecked.txIdx + 1 = 8) ∧
    (Inv (withEvents [.tick] { writing with timer := 2 }) ∧ 2 + 1 < writing.cfg.tTx) ∧
    (Inv (withEvents [.tick] writing) ∧ writing.timer + 1 = writing.cfg.tTx) ∧
    (Inv (withEvents [.tick] writingChecked) ∧ writingChecked.timer + 1 = writingChecked.cfg.tTx) :=
  ⟨⟨inv_withEvents _ (by constructor <;> decide), by decide⟩,
    ⟨inv_withEvents _ inv_writing, rfl, rfl, rfl, rfl, rfl⟩, ⟨inv_withEvents _ inv_writingChecked, rfl, rfl⟩,
    ⟨inv_withEvents _ (by constructor <;> decide), by decide⟩, ⟨inv_withEvents _ inv_writing, rfl⟩,
    inv_withEvents _ inv_writingChecked, rfl⟩
theorem witness_WriteCheckedComparesTheCounter :
    Inv State.reset ∧ State.reset.phase = .idle ∧ (0x10 : Byte).getLsbD 7 = false ∧
    someFailures.length < State.reset.cfg.chkTries ∧ (∀ f ∈ someFailures, f.Fails State.reset.cfg) ∧
    earlyAnswer.Brings State.reset.cfg [] reply ∧ lateAnswer.Brings State.reset.cfg [0x00, 0xAA] reply ∧
    WholeWrite State.reset.cfg slowWrite :=
  ⟨inv_reset, rfl, by decide, by decide, someFailures_fail, by decide, by decide, slowWrite_whole⟩
theorem witness_WriteCheckedTurnsFailureIntoFalse :
    Inv State.reset ∧ State.reset.phase = .idle ∧ (0x10 : Byte).getLsbD 7 = false ∧
    someFailures.length < State.reset.cfg.chkTries ∧ (∀ f ∈ someFailures, f.Fails State.reset.cfg) ∧
    lateAnswer.Brings State.reset.cfg [0x00, 0xAA] reply ∧
    nineFailures.length + 1 = State.reset.cfg.chkTries ∧
    (∀ f ∈ nineFailures, f.Fails State.reset.cfg) ∧
    (FailedAttempt.noReply [] [] []).Fails State.reset.cfg ∧
    WholeWrite State.reset.cfg slowWrite ∧ ShortWrite State.reset.cfg 7 shortWrite :=
  ⟨inv_reset, rfl, by decide, by decide, someFailures_fail, by decide, by decide, nineFailures_fail,
    noWholeReply_of_short _ _ (by decide), slowWrite_whole, shortWrite_short⟩
theorem witness_WriteCheckedAlwaysEndsWithABit :
    Inv (withEvents [.rxByte 0xF9] comparing) ∧ comparing.phase ≠ .idle ∧ comparing.op = .writeChecked ∧
    (∀ rest, (withEvents [.rxByte 0xF9] comparing).events ≠ .reset :: rest) ∧
    ∃ t, step (withEvents [.rxByte 0xF9] comparing) = .next t ∧ t.phase = .idle :=
  ⟨inv_withEvents _ inv_comparing, by decide, rfl, (by intro rest h; cases h), ⟨_, rfl, by decide⟩⟩
theorem witness_WireGrowsByTheOfferedByte :
    (∃ t, step (withEvents [.txAccept] writing) = .next t) ∧ txValid writing = true ∧
    (∃ t, step (withEvents [.txAccept] capturing) = .next t) ∧ txValid capturing = false ∧
    (∃ t, step (withEvents [.tick] writing) = .next t) :=
  ⟨⟨_, rfl⟩, by decide, ⟨_, rfl⟩, by decide, ⟨_, rfl⟩⟩
theorem witness_ReadCommandsEmitOnlyTheirReadFrame :
    Inv State.reset ∧ State.reset.phase = .idle ∧ (0x06 : Byte).getLsbD 7 = false ∧
    LineEvents [.txAccept, .tick, .rxByte 0x05] ∧
    ∃ t, after (.cmd (encode (.readReg 0x06)) :: [.txAccept, .tick, .rxByte 0x05]) State.reset = .next t :=
  ⟨inv_reset, rfl, by decide, by simp [LineEvents], ⟨_, rfl⟩⟩
theorem witness_WriteFrameIsSentAtMostOnce :
    Inv State.reset ∧ State.reset.phase = .idle ∧ (0x10 : Byte).getLsbD 7 = false ∧ LineEvents [.txAccept, .tick] ∧
    (∃ t, after (.cmd (encode (.writeReg 0x10 1)) :: [.txAccept, .tick]) State.reset = .next t) ∧
    (∃ t, after (.cmd (encode (.writeChecked 0x10 1)) :: [.txAccept, .tick]) State.reset = .next t) :=
  ⟨inv_reset, rfl, by decide, by simp [LineEvents], ⟨_, rfl⟩, ⟨_, rfl⟩⟩
theorem witness_DiagGrowsByFailedCrcChecks :
    (Config.atReset.replyCrcFrom = 0 ∧ ({ Config.atReset with replyCrcFrom := 4 } : Config).replyCrcFrom = 4) ∧
    (Inv (withEvents [.rxByte 0x00] capturing) ∧ Captures (withEvents [.rxByte 0x00] capturing) (capturing.rxBuf ++ [0x00]) ∧
      (capturing.rxBuf ++ [0x00])[11]? = some 0x00 ∧
      ∃ t, step (withEvents [.rxByte 0x00] capturing) = .next t ∧ t.diag = [⟨0x02, 0xD4, 0x00⟩]) ∧
    (Inv (withEvents [.tick] paused) ∧ Captures (withEvents [.tick] paused) reply ∧ reply[11]? = some 0xD4 ∧
      ∃ t, step (withEvents [.tick] paused) = .next t ∧ t.diag = []) ∧
    (Inv (withEvents [.txAccept] fullInTx) ∧ Captures (withEvents [.txAccept] fullInTx) reply) ∧
    (Inv (withEvents [.tick] capturing) ∧ ∀ r, ¬ Captures (withEvents [.tick] capturing) r) :=
  ⟨⟨rfl, rfl⟩,
    ⟨inv_withEvents _ inv_capturing, .inl ⟨_, _, rfl, rfl, rfl, rfl⟩, rfl, _, rfl, by decide⟩,
    ⟨inv_withEvents _ inv_paused, .inr (.inl ⟨_, rfl, rfl, rfl, rfl, rfl⟩), rfl, _, rfl, by decide⟩,
    ⟨inv_withEvents _ inv_fullInTx, .inr (.inr ⟨_, rfl, rfl, rfl, rfl, rfl, rfl⟩)⟩,
    ⟨inv_withEvents _ inv_capturing, by
      rintro r (⟨b, rest, -, -, h, -⟩ | ⟨rest, h, -⟩ | ⟨rest, h, -⟩) <;> cases h⟩⟩
/-- §3.3's last paragraph: byte 5 changed from FF to 00 fails the check, with this record. -/
theorem test_reply_crc_span :
    replyValue [0x05, 0x00, 0x06, 0xD2, 0x05, 0x00, 0x06, 0xC0, 0xDE, 0x00, 0x42, 0x2E] = 0xC0DE0042 ∧
    diagRecords Config.atReset 0x06 [0x05, 0x00, 0x06, 0xD2, 0x05, 0x00, 0x06, 0xC0, 0xDE, 0x00, 0x42, 0x2E] =
      [⟨0x06, 0x81, 0x2E⟩] := by decide
theorem witness_ResponseWrittenOnlyAtAcceptAndFinish :
    Inv (withEvents [.tick] capturing) ∧ (∀ rest, (withEvents [.tick] capturing).events ≠ .reset :: rest) ∧
    ∃ t, step (withEvents [.tick] capturing) = .next t :=
  ⟨inv_withEvents _ inv_capturing, (by intro rest h; cases h), ⟨_, rfl⟩⟩
theorem witness_ResponseReadIsRefusedWithoutAResponse :
    Inv writing ∧ writing.phase ≠ .idle ∧ State.reset.respValid = false ∧
    (stepOn (.cmd 0x10AB00000000) State.reset).respValid = true :=
  ⟨inv_writing, by decide, rfl, by decide⟩
theorem witness_TimerStaysBelowItsLimit :
    (Inv (withEvents [.tick] writing) ∧ ∃ t, step (withEvents [.tick] writing) = .next t) ∧
    (Inv (withEvents [.tick] backingOff) ∧ ∃ t, step (withEvents [.tick] backingOff) = .next t ∧ t.phase = .backoff) ∧
    (Inv (withEvents [.txAccept] capturing) ∧
      ∃ t, step (withEvents [.txAccept] capturing) = .next t ∧ t.phase = .capture) :=
  ⟨⟨inv_withEvents _ inv_writing, ⟨_, rfl⟩⟩, ⟨inv_withEvents _ inv_backingOff, ⟨_, rfl, by decide⟩⟩,
    ⟨inv_withEvents _ inv_capturing, ⟨_, rfl, by decide⟩⟩⟩
theorem witness_IdleBlockIgnoresTheLine :
    Inv (withEvents [.tick] State.reset) ∧ Inv (withEvents [.txAccept] State.reset) ∧
    Inv (withEvents [.rxByte 0x05] State.reset) ∧ State.reset.phase = .idle :=
  ⟨inv_withEvents _ inv_reset, inv_withEvents _ inv_reset, inv_withEvents _ inv_reset, rfl⟩
theorem witness_CommandsFinishWithinTheirTickBound :
    Inv State.reset ∧ State.reset.phase = .idle ∧ decode 0x600000000041 = .cmd (.writeReg 0x00 0x41) ∧
    LineEvents [.tick, .rxByte 0x05, .tick, .tick, .txAccept, .tick] ∧
    commandTickBound State.reset.cfg (.writeReg 0x00 0x41) ≤ tickCount [.tick, .rxByte 0x05, .tick, .tick, .txAccept, .tick] :=
  ⟨inv_reset, rfl, by decide, by simp [LineEvents], by decide⟩
theorem witness_WithoutTicksTheBlockHangs :
    (Inv { writing with txIdx := 5 } ∧ writing.phase = .tx ∧
      (∀ e ∈ [Event.txAccept, .rxByte 0x05, .cmd 0x10AB00000000, .txAccept], e ≠ .tick ∧ e ≠ .reset) ∧
      5 + [Event.txAccept, .rxByte 0x05, .cmd 0x10AB00000000, .txAccept].count .txAccept < writing.txFrame.length) ∧
    (Inv { capturing with rxBuf := reply.take 10 } ∧
      (rxReceive (receivedBytes [.txAccept, .rxByte 0x07]) { capturing with rxBuf := reply.take 10 }).rx ≠ .full) ∧
    (Inv paused ∧ paused.phase = .pause) ∧ (Inv backingOff ∧ backingOff.phase = .backoff) :=
  ⟨⟨by constructor <;> decide, rfl, by decide, by decide⟩, ⟨by constructor <;> decide, by decide⟩,
    ⟨inv_paused, rfl⟩, inv_backingOff, rfl⟩
theorem witness_CompletionBeatsTheDeadline :
    (Inv capturing ∧ capturing.phase = .capture ∧ capturing.rxBuf.length = 11 ∧
      capturing.timer + 1 = capturing.cfg.tCapture ∧ capturing.op ≠ .writeChecked) ∧
    (Inv counting ∧ counting.phase = .capture ∧ counting.timer + 1 = counting.cfg.tCapture ∧
      counting.op = .writeChecked ∧ counting.stage = .before) ∧
    (Inv comparing ∧ comparing.phase = .capture ∧ comparing.timer + 1 = comparing.cfg.tCapture ∧
      comparing.stage = .after) ∧
    (Inv writing ∧ writing.phase = .tx ∧ writing.op = .writeReg ∧ writing.txIdx + 1 = writing.txFrame.length ∧
      writing.timer + 1 = writing.cfg.tTx) ∧
    Inv writingChecked :=
  ⟨⟨inv_capturing, by decide, by decide, by decide, by decide⟩, ⟨inv_counting, rfl, rfl, rfl, rfl⟩,
    ⟨inv_comparing, rfl, rfl, rfl⟩, ⟨inv_writing, by decide, by decide, by decide, by decide⟩,
    inv_writingChecked⟩
theorem witness_CompletionBeatsTheDeadline_read_frame :
    (Inv fullInTx ∧ fullInTx.phase = .tx ∧ fullInTx.kind = .read ∧ fullInTx.txIdx + 1 = fullInTx.txFrame.length ∧
      fullInTx.timer + 1 = fullInTx.cfg.tTx ∧ fullInTx.cfg.tPause = 0 ∧ fullInTx.rx = .full ∧
      fullInTx.op ≠ .writeChecked) ∧
    (Inv { fullInTx with rx := .hunt, rxBuf := [] }) ∧
    (Inv { fullInTx with cfg := Config.atReset } ∧ 0 < Config.atReset.tPause) ∧
    (Inv { fullInTx with op := .writeChecked, stage := .before, limit := 10 }) ∧
    (Inv { fullInTx with op := .writeChecked, stage := .after, limit := 10 }) :=
  ⟨⟨inv_fullInTx, rfl, rfl, rfl, rfl, rfl, rfl, by decide⟩, by constructor <;> decide,
    ⟨by constructor <;> decide, by decide⟩, by constructor <;> decide, by constructor <;> decide⟩
theorem witness_ResetAbandonsTheCommand :
    (withEvents [.reset] writing).cfg.legal = true ∧ (withEvents [.reset] writing).events = .reset :: [] := by decide
theorem witness_ResetSatisfiesTheInvariant : Config.atReset.legal = true := by decide
theorem witness_EveryStepKeepsTheInvariant :
    Inv (withEvents [.tick] paused) ∧ ∃ t, step (withEvents [.tick] paused) = .next t :=
  ⟨inv_withEvents _ inv_paused, ⟨_, rfl⟩⟩
theorem witness_NoEventChangesTheConfiguration : ∃ t, step (withEvents [.reset] writing) = .next t := ⟨_, rfl⟩
theorem witness_MeaninglessElementsAreUnobservable :
    Inv (withEvents [.cmd 0x600000000041] State.reset) ∧
    Inv (withEvents [.cmd 0x600000000041] { State.reset with
      op := .writeChecked, addr := 3, stage := .after, attempt := 0, respData := 9, before := 1 }) ∧
    SameMeaning (withEvents [.cmd 0x600000000041] State.reset)
      (withEvents [.cmd 0x600000000041] { State.reset with
        op := .writeChecked, addr := 3, stage := .after, attempt := 0, respData := 9, before := 1 }) ∧
    ∃ t, step (withEvents [.cmd 0x600000000041] State.reset) = .next t :=
  ⟨inv_withEvents _ inv_reset, by constructor <;> decide, rfl, ⟨_, rfl⟩⟩

end Sys2Proof.Tests
end

section
/-! Which configurations a step goes on in (00_scope.md R5, R6; 60_exceptions.md R236). -/

namespace Sys2Proof

/-- The 7-bit type of `P_IFCNT_ADDR` is R6's bound on it. -/
theorem Config.ifcntAddr_le (c : Config) : c.ifcntAddr.toNat ≤ 0x7F := Nat.le_of_lt_succ c.ifcntAddr.isLt

namespace Machine

variable {s : State}

/-- With no event to come, a step of a legal instance stays where it is. -/
theorem step_of_events_nil (hl : s.cfg.legal = true) (he : s.events = []) : step s = .next s := by
  unfold step stepNextEvent
  rw [if_pos hl, he]

/-- A configuration outside R6 is refused, whatever the state. -/
theorem step_of_not_legal (hl : s.cfg.legal = false) : step s = .refused .illegalConfiguration := by
  unfold step
  rw [hl]
  rfl

/-- A legal instance goes on, on every event and with none to come. -/
theorem safeStep_of_legal (hl : s.cfg.legal = true) : SafeStep s := by
  cases he : s.events with
  | nil => exact ⟨s, step_of_events_nil hl he⟩
  | cons ev rest =>
    obtain ⟨t, ht⟩ := stepEvent_eq_next ev { s with events := rest }
    exact ⟨t, (step_of_event hl he).trans ht⟩

end Machine

/-- Settles O7: the step by the events to come, legality by the law `Config.legal_iff` and the fields' types. -/
theorem stepGoesOnExactlyInLegalConfigurations : Obligations.StepGoesOnExactlyInLegalConfigurations := by
  refine ⟨fun s => ⟨Machine.safeStep_of_legal, Machine.step_of_not_legal⟩, fun c => ?_⟩
  have hifcnt := c.ifcntAddr_le
  rw [c.legal_iff]
  omega

end Sys2Proof
end

section
/-! A step as the event's rule and then `Settle` (41_transaction.md R142), and that `Settle` ends where nothing is due
(R148). -/

namespace Sys2Proof.Machine

variable {s t : State}

/-! ### The event's rule -/

/-- What an accepted word does (R144), by what it decodes to. -/
def acceptBody (c : Config) : Decoded → State → State
  | .illegal _ => raiseIllegalCommand
  | .cmd (.crcSeed a8) => fun s => finish statusOk (zext32 a8) { s with crc := a8 }
  | .cmd (.crcUpdate a8) => fun s =>
    finish statusOk (zext32 (crcByte c.crcReflectIn s.crc a8)) { s with crc := crcByte c.crcReflectIn s.crc a8 }
  | .cmd (.readReg a8) => beginRead .readReg a8 1
  | .cmd (.readInt a8) => beginRead .readInt a8 c.maxTries
  | .cmd (.readU32 a8) => beginRead .readU32 a8 c.maxTries
  | .cmd (.writeReg a8 d32) => fun s => startWrite (regNumber a8) d32 (enterStage .main (latch .writeReg a8 d32 s))
  | .cmd (.writeChecked a8 d32) => fun s =>
    startRead c.ifcntAddr c.chkTries (enterStage .before (latch .writeChecked a8 d32 s))

theorem onCmd_eq (w : CmdWord) (s : State) : onCmd w s = .next (accept (acceptBody s.cfg (decode w)) s) := by
  unfold onCmd
  cases decode w with
  | illegal why => rfl
  | cmd i => cases i <;> rfl

/-- The rule of each event, before `Settle`. -/
def handle : Event → State → State
  | .reset, s => resetState s
  | .cmd w, s => accept (acceptBody s.cfg (decode w)) s
  | .rxByte b, s => onRx b s
  | .txAccept, s => onTxAccept s
  | .tick, s => onTick s

/-- A word presented in IDLE is accepted (R143). -/
theorem handle_cmd_idle (w : CmdWord) (hp : s.phase = .idle) :
    handle (.cmd w) s = acceptBody s.cfg (decode w) (openCommand s) := accept_idle _ hp

/-- A word presented in another phase is held (R143). -/
theorem handle_cmd_busy (w : CmdWord) (hp : s.phase ≠ .idle) : handle (.cmd w) s = s := accept_busy _ hp

/-- A received byte changes only the RX unit. -/
theorem onRx_eq (b : Byte) (s : State) : ∃ rx buf, onRx b s = { s with rx := rx, rxBuf := buf } := by
  obtain h | ⟨-, -, h⟩ | ⟨-, h⟩ := onRx_cases b s
  exacts [⟨s.rx, s.rxBuf, h⟩, ⟨_, _, h⟩, ⟨_, _, h⟩]

/-- What the rule of an event of the line or the clock leaves unchanged: all but the RX unit, the wire, the place in the frame
and the timer. -/
theorem handle_line_eq {ev : Event} (hcmd : ∀ w, ev ≠ .cmd w) (hreset : ev ≠ .reset) (s : State) :
    ∃ rx buf wire i n, handle ev s = { s with rx := rx, rxBuf := buf, wire := wire, txIdx := i, timer := n } := by
  cases ev with
  | reset => exact absurd rfl hreset
  | cmd w => exact absurd rfl (hcmd w)
  | rxByte b =>
    obtain ⟨rx, buf, h⟩ := onRx_eq b s
    exact ⟨rx, buf, s.wire, s.txIdx, s.timer, h⟩
  | txAccept =>
    obtain ⟨-, h⟩ | ⟨b, -, h⟩ := onTxAccept_cases s
    exacts [⟨s.rx, s.rxBuf, s.wire, s.txIdx, s.timer, h⟩, ⟨s.rx, s.rxBuf, _, _, s.timer, h⟩]
  | tick =>
    simp only [handle, onTick]
    split
    exacts [⟨s.rx, s.rxBuf, s.wire, s.txIdx, s.timer, rfl⟩, ⟨s.rx, s.rxBuf, s.wire, s.txIdx, _, rfl⟩]

/-- Every event but Reset is its rule and then `Settle`. -/
theorem stepEvent_eq_settle {ev : Event} (hev : ev ≠ .reset) (s : State) :
    stepEvent ev s = .next (settle (handle ev s)) := by
  cases ev with
  | reset => exact absurd rfl hev
  | cmd w => simp only [stepEvent, onCmd_eq, thenSettle, handle]
  | rxByte b => rfl
  | txAccept => rfl
  | tick => rfl

/-- A step that goes on waits for an event, or is the step of the next one. -/
theorem step_next_cases (h : step s = .next t) :
    (s.events = [] ∧ t = s) ∨
    ∃ ev rest, s.events = ev :: rest ∧ stepEvent ev (withEvents rest s) = .next t := by
  obtain ⟨hl, -⟩ := step_cases h
  cases he : s.events with
  | nil =>
    rw [step_of_events_nil hl he] at h
    cases h
    exact .inl ⟨rfl, rfl⟩
  | cons ev rest => exact .inr ⟨ev, rest, rfl, (step_of_event hl he).symm.trans h⟩

/-- A step that goes on waits for an event, is a Reset, or is the rule of the next event and then `Settle`. -/
theorem step_handle_cases (h : step s = .next t) :
    (s.events = [] ∧ t = s) ∨
    (∃ rest, s.events = .reset :: rest ∧ t = resetState (withEvents rest s)) ∨
    ∃ ev rest, ev ≠ .reset ∧ s.events = ev :: rest ∧ t = settle (handle ev (withEvents rest s)) := by
  obtain h | ⟨ev, rest, he, h⟩ := step_next_cases h
  · exact .inl h
  · by_cases hev : ev = .reset
    · subst hev
      cases h
      exact .inr (.inl ⟨rest, he, rfl⟩)
    · rw [stepEvent_eq_settle hev] at h
      cases h
      exact .inr (.inr ⟨ev, rest, hev, he, rfl⟩)

/-- In a legal configuration the step of every event but Reset is its rule and then `Settle`. -/
theorem step_of_handle {ev : Event} {rest : List Event} (hl : s.cfg.legal = true) (he : s.events = ev :: rest)
    (hev : ev ≠ .reset) : step s = .next (settle (handle ev (withEvents rest s))) := by
  rw [step_of_event hl he]
  exact stepEvent_eq_settle hev (withEvents rest s)

/-- What an accepted word can do: complete at once, or start its first sub-transaction as the running command's. -/
theorem acceptBody_cases (c : Config) (d : Decoded) :
    (∃ st, st ≠ statusReserved ∧ ∀ s, ∃ v k, acceptBody c d s = finish st v { s with crc := k }) ∨
    (∃ op st a8 v, stageKindOk op st .read = true ∧
      acceptBody c d = fun s =>
        startRead (readAddress c (regNumber a8) op) (attemptLimit c op) (enterStage st (latch op a8 v s))) ∨
    (∃ a8 v, acceptBody c d = fun s => startWrite (regNumber a8) v (enterStage .main (latch .writeReg a8 v s))) := by
  cases d with
  | illegal why => exact .inl ⟨statusIllegalCommand, by decide, fun s => ⟨0, s.crc, rfl⟩⟩
  | cmd i =>
    cases i with
    | crcSeed a8 => exact .inl ⟨statusOk, by decide, fun s => ⟨_, _, rfl⟩⟩
    | crcUpdate a8 => exact .inl ⟨statusOk, by decide, fun s => ⟨_, _, rfl⟩⟩
    | readReg a8 => exact .inr (.inl ⟨.readReg, .main, a8, 0, rfl, rfl⟩)
    | readInt a8 => exact .inr (.inl ⟨.readInt, .main, a8, 0, rfl, rfl⟩)
    | readU32 a8 => exact .inr (.inl ⟨.readU32, .main, a8, 0, rfl, rfl⟩)
    | writeReg a8 d32 => exact .inr (.inr ⟨a8, d32, rfl⟩)
    | writeChecked a8 d32 => exact .inr (.inl ⟨.writeChecked, .before, a8, d32, rfl, rfl⟩)

/-! ### A captured reply -/

/-- What a captured reply leaves before its sub-transaction ends (R152): the unit disarmed, the mismatch recorded. -/
def recordReply (s : State) : State :=
  { disarm s with
    diag := s.diag ++ diagRecords s.cfg s.curAddr s.rxBuf
    crcAcc := accumulateCrc s.cfg s.crcAcc s.rxBuf }

theorem replyCaptured_eq (s : State) : replyCaptured s = subDone true (replyValue s.rxBuf) (recordReply s) := rfl

/-! ### `Settle` ends where nothing is due -/

/-- An upper bound of the turns `Settle`'s loop still takes in a legal configuration. -/
def turnsLeft (s : State) : Nat :=
  match s.phase with
  | .idle => 0
  | .tx => if s.txIdx ≠ s.txFrame.length ∧ s.timer < s.cfg.tTx then 0 else 3
  | .pause => 2
  | .capture => if s.timer < s.cfg.tCapture then 1 else 2
  | .backoff => 1

theorem turnsLeft_idle (hp : s.phase = .idle) : turnsLeft s = 0 := by
  simp only [turnsLeft, hp]

theorem turnsLeft_tx_open (hp : s.phase = .tx) (hi : s.txIdx ≠ s.txFrame.length) (ht : s.timer < s.cfg.tTx) :
    turnsLeft s = 0 := by
  simp only [turnsLeft, hp]
  exact if_pos ⟨hi, ht⟩

theorem turnsLeft_tx_due (hp : s.phase = .tx) (h : s.txIdx = s.txFrame.length ∨ s.cfg.tTx ≤ s.timer) :
    turnsLeft s = 3 := by
  simp only [turnsLeft, hp]
  exact if_neg (by omega)

theorem turnsLeft_pause (hp : s.phase = .pause) : turnsLeft s = 2 := by
  simp only [turnsLeft, hp]

theorem turnsLeft_capture_open (hp : s.phase = .capture) (ht : s.timer < s.cfg.tCapture) : turnsLeft s = 1 := by
  simp only [turnsLeft, hp, if_pos ht]

theorem turnsLeft_capture_due (hp : s.phase = .capture) (ht : s.cfg.tCapture ≤ s.timer) : turnsLeft s = 2 := by
  simp only [turnsLeft, hp, if_neg (Nat.not_lt.2 ht)]

theorem turnsLeft_capture_pos (hp : s.phase = .capture) : 0 < turnsLeft s := by
  obtain ht | ht := Nat.lt_or_ge s.timer s.cfg.tCapture
  · simp [turnsLeft_capture_open hp ht]
  · simp [turnsLeft_capture_due hp ht]

theorem turnsLeft_backoff (hp : s.phase = .backoff) : turnsLeft s = 1 := by
  simp only [turnsLeft, hp]

theorem turnsLeft_le_three (s : State) : turnsLeft s ≤ 3 := by
  unfold turnsLeft
  split
  · omega
  · split <;> omega
  · omega
  · split <;> omega
  · omega

theorem settleOnce_of_turnsLeft_eq_zero (h : turnsLeft s = 0) : settleOnce s = none := by
  rw [settleOnce_eq_none_iff]
  unfold turnsLeft at h
  cases hp : s.phase <;> simp_all
  split at h <;> omega

/-- A sub-transaction that ends leaves nothing due. -/
theorem turnsLeft_subDone (hl : s.cfg.legal = true) (ok : Bool) (v : Word32) : turnsLeft (subDone ok v s) = 0 := by
  obtain ⟨-, -, htTx, -⟩ := Config.bounds_of_legal hl
  obtain hp | ⟨hp, hi, ht, hlen⟩ := subDone_phase ok v s
  · exact turnsLeft_idle hp
  · exact turnsLeft_tx_open hp (by omega) (by rw [ht, subDone_cfg]; omega)

/-- A failed attempt leaves at most the turn that ends a pause of no ticks. -/
theorem turnsLeft_attemptFailed (hl : s.cfg.legal = true) : turnsLeft (attemptFailed s) ≤ 1 := by
  obtain ⟨-, -, h⟩ | ⟨-, h⟩ := attemptFailed_cases s <;> rw [h]
  · exact (turnsLeft_backoff rfl).le
  · exact (turnsLeft_subDone hl false 0).le.trans (Nat.zero_le 1)

theorem turnsLeft_txDone (hl : s.cfg.legal = true) : turnsLeft (txDone s) ≤ 2 := by
  unfold txDone
  split
  · exact (turnsLeft_pause rfl).le
  · exact (turnsLeft_subDone hl true 0).le.trans (Nat.zero_le 2)

theorem turnsLeft_replyCaptured (hl : s.cfg.legal = true) : turnsLeft (replyCaptured s) = 0 := by
  rw [replyCaptured_eq]
  exact turnsLeft_subDone (s := recordReply s) hl true (replyValue s.rxBuf)

theorem turnsLeft_startAttempt (hl : s.cfg.legal = true) : turnsLeft (startAttempt s) = 0 := by
  obtain ⟨-, -, htTx, -⟩ := Config.bounds_of_legal hl
  exact turnsLeft_tx_open rfl (by simp) htTx

/-- Each turn of the loop brings its end nearer. -/
theorem turnsLeft_settleOnce (hl : s.cfg.legal = true) (h : settleOnce s = some t) : turnsLeft t < turnsLeft s := by
  obtain ⟨-, -, -, htCapture⟩ := Config.bounds_of_legal hl
  obtain ⟨hp, hi, rfl⟩ | ⟨hp, -, ht, rfl⟩ | ⟨hp, -, rfl⟩ | ⟨hp, -, rfl⟩ | ⟨hp, -, ht, rfl⟩ | ⟨hp, -, rfl⟩ :=
    settleOnce_cases h
  · rw [turnsLeft_tx_due hp (.inl hi)]
    exact Nat.lt_succ_of_le (turnsLeft_txDone hl)
  · rw [turnsLeft_tx_due hp (.inr ht)]
    exact (turnsLeft_attemptFailed hl).trans_lt (by decide)
  · rw [turnsLeft_pause hp, turnsLeft_capture_open (s := { s with phase := .capture, timer := 0 }) rfl htCapture]
    decide
  · rw [turnsLeft_replyCaptured hl]
    exact turnsLeft_capture_pos hp
  · rw [turnsLeft_capture_due hp ht]
    exact (turnsLeft_attemptFailed hl).trans_lt (by decide)
  · rw [turnsLeft_backoff hp, turnsLeft_startAttempt hl]
    decide

theorem settleOnce_settleFor : ∀ {n : Nat} {s : State}, s.cfg.legal = true → turnsLeft s ≤ n →
    settleOnce (settleFor n s) = none
  | 0, _, _, hn => settleOnce_of_turnsLeft_eq_zero (Nat.le_zero.1 hn)
  | n + 1, s, hl, hn => by
    unfold settleFor
    split
    next h => exact h
    next t ht =>
      have := turnsLeft_settleOnce hl ht
      exact settleOnce_settleFor (by rw [settleOnce_cfg ht]; exact hl) (by omega)

/-- `Settle` ends where no transition is due (R148). -/
theorem settleOnce_settle (hl : s.cfg.legal = true) : settleOnce (settle s) = none :=
  settleOnce_settleFor hl (turnsLeft_le_three s)

/-- Nothing is due in IDLE. -/
theorem settleOnce_idle (hp : s.phase = .idle) : settleOnce s = none :=
  settleOnce_of_turnsLeft_eq_zero (turnsLeft_idle hp)

/-- An accepted word leaves nothing due: the command is over, or its first frame is at its start. -/
theorem turnsLeft_acceptBody (hl : s.cfg.legal = true) (c : Config) (d : Decoded) : turnsLeft (acceptBody c d s) = 0 := by
  obtain ⟨-, -, htTx, -⟩ := Config.bounds_of_legal hl
  obtain ⟨st, -, h⟩ | ⟨op, st, a8, v, -, h⟩ | ⟨a8, v, h⟩ := acceptBody_cases c d
  · obtain ⟨v, k, h⟩ := h s
    rw [h]
    exact turnsLeft_idle rfl
  · rw [h]
    exact turnsLeft_startAttempt hl
  · rw [h]
    exact turnsLeft_tx_open rfl (by simp [startWrite]) htTx

theorem settle_of_turnsLeft_eq_zero (h : turnsLeft s = 0) : settle s = s :=
  settle_of_quiescent (settleOnce_of_turnsLeft_eq_zero h)

/-- A word presented in IDLE: `Settle` has nothing to do after its accept. -/
theorem settle_handle_cmd_idle (hl : s.cfg.legal = true) (w : CmdWord) (hp : s.phase = .idle) :
    settle (handle (.cmd w) s) = acceptBody s.cfg (decode w) (openCommand s) := by
  rw [handle_cmd_idle w hp]
  exact settle_of_turnsLeft_eq_zero (turnsLeft_acceptBody (s := openCommand s) hl s.cfg (decode w))

/-! ### `Settle` from two states side by side -/

/-- Two states in which the same transition is due (R148). -/
structure SameGuards (s t : State) : Prop where
  cfg : t.cfg = s.cfg
  phase : t.phase = s.phase
  txFrame : t.txFrame = s.txFrame
  txIdx : t.txIdx = s.txIdx
  timer : t.timer = s.timer
  rx : t.rx = s.rx

/-- A relation that every transition keeps is kept by a turn of the loop. -/
theorem settleOnce_rel {R : State → State → Prop} (hg : SameGuards s t)
    (hdone : s.phase = .tx → R (txDone s) (txDone t))
    (hfail : s.phase ≠ .idle → R (attemptFailed s) (attemptFailed t))
    (hwait : s.phase = .pause → R { s with phase := .capture, timer := 0 } { t with phase := .capture, timer := 0 })
    (hreply : s.phase = .capture → R (replyCaptured s) (replyCaptured t))
    (hstart : s.phase = .backoff → R (startAttempt s) (startAttempt t)) :
    Option.Rel R (settleOnce s) (settleOnce t) := by
  unfold settleOnce
  simp only [hg.cfg, hg.phase, hg.txFrame, hg.txIdx, hg.timer, hg.rx] at hwait ⊢
  cases hp : s.phase with
  | idle => exact .none
  | tx =>
    dsimp only
    split
    · exact .some (hdone hp)
    · split
      · exact .some (hfail (by simp [hp]))
      · exact .none
  | pause =>
    dsimp only
    split
    · exact .some (hwait hp)
    · exact .none
  | capture =>
    dsimp only
    split
    · exact .some (hreply hp)
    · split
      · exact .some (hfail (by simp [hp]))
      · exact .none
  | backoff =>
    dsimp only
    split
    · exact .some (hstart hp)
    · exact .none

/-- A relation that a turn of the loop keeps is kept by any number of turns. -/
theorem settleFor_rel {R : State → State → Prop}
    (hR : ∀ s t, R s t → Option.Rel R (settleOnce s) (settleOnce t)) :
    ∀ (n : Nat) (s t : State), R s t → R (settleFor n s) (settleFor n t)
  | 0, _, _, h => h
  | n + 1, s, t, h => by
    unfold settleFor
    have hturn := hR s t h
    generalize settleOnce s = a at hturn ⊢
    generalize settleOnce t = b at hturn ⊢
    cases hturn with
    | none => exact h
    | some h' => exact settleFor_rel hR n _ _ h'

theorem settle_rel {R : State → State → Prop}
    (hR : ∀ s t, R s t → Option.Rel R (settleOnce s) (settleOnce t)) (h : R s t) : R (settle s) (settle t) :=
  settleFor_rel hR 3 s t h

end Sys2Proof.Machine
end

section
/-! The invariant (10_state.md R41, 41_transaction.md R159): the part of it that holds between the turns of `Settle`, and that
every event and every turn keep it. -/

namespace Sys2Proof.Machine

variable {s t : State}

/-! ### The RX unit and its buffer -/

/-- What the RX unit holds in each of its states (R29, R30, R145). -/
def RxConsistent (c : Config) : RxMode → List Byte → Prop
  | .off, buf => buf = []
  | .hunt, buf => buf = []
  | .collect, buf => buf.head? = some c.sync ∧ buf.length < 12
  | .full, buf => buf.head? = some c.sync ∧ buf.length = 12

/-- The clauses of `Inv` about the buffer, said by the state of the unit. -/
theorem rxConsistent_iff (c : Config) (rx : RxMode) (buf : List Byte) : RxConsistent c rx buf ↔
    (rx = .full ↔ buf.length = 12) ∧ buf.length ≤ 12 ∧ (rx = .off ∨ rx = .hunt → buf = []) ∧
    (rx = .collect → buf ≠ []) ∧ (buf = [] ∨ buf.head? = some c.sync) := by
  cases buf with
  | nil => cases rx <;> simp [RxConsistent]
  | cons b bs =>
    by_cases hb : b = c.sync
    · cases rx <;> simp [RxConsistent, hb] <;> omega
    · cases rx <;> simp [RxConsistent, hb]

/-- A received byte keeps the buffer in step with the unit. -/
theorem rxConsistent_onRx (b : Byte) (h : RxConsistent s.cfg s.rx s.rxBuf) :
    RxConsistent (onRx b s).cfg (onRx b s).rx (onRx b s).rxBuf := by
  obtain ho | ⟨-, hb, ho⟩ | ⟨hr, ho⟩ := onRx_cases b s <;> rw [ho]
  · exact h
  · simp [RxConsistent, hb]
  · rw [hr] at h
    obtain ⟨hhead, hlen⟩ := h
    have hhead' : (s.rxBuf ++ [b]).head? = some s.cfg.sync := by simp [List.head?_append, hhead]
    have hlen' : (s.rxBuf ++ [b]).length = s.rxBuf.length + 1 := by simp
    dsimp only
    split
    next hfull => exact ⟨hhead', hfull⟩
    next hopen => exact ⟨hhead', by simp only [replyLength] at hopen; omega⟩

/-- A received byte leaves an armed unit armed, and a disarmed one off. -/
theorem onRx_rx_eq_off_iff (b : Byte) (s : State) : (onRx b s).rx = .off ↔ s.rx = .off := by
  obtain ho | ⟨hr, -, ho⟩ | ⟨hr, ho⟩ := onRx_cases b s <;> rw [ho]
  · simp [hr]
  · dsimp only
    split <;> simp [hr]

/-! ### The loop's invariant -/

/-- A phase in which a read sub-transaction has its RX unit armed (R145). -/
abbrev Listens (p : Phase) : Prop := p = .tx ∨ p = .pause ∨ p = .capture

/-- What holds of a running command in every phase. -/
structure RunningInv (s : State) : Prop where
  frame : s.txFrame = currentFrame s
  stage_kind : stageKindOk s.op s.stage s.kind = true
  closed : s.respValid = false
  attempts : s.kind = .read → 1 ≤ s.attempt ∧ s.attempt ≤ s.limit
  target : s.kind = .read → s.limit = attemptLimit s.cfg s.op ∧ s.curAddr = readAddress s.cfg s.addr s.op

/-- The part of `Inv` that holds between the turns of `Settle`: all of it but the bounds that `Settle` restores. -/
structure LoopInv (s : State) : Prop where
  legal : s.cfg.legal = true
  status : s.respStatus ≠ statusReserved
  rx_consistent : RxConsistent s.cfg s.rx s.rxBuf
  idle_clear : s.phase = .idle → s.rx = .off ∧ s.txFrame = [] ∧ s.txIdx = 0 ∧ s.timer = 0
  armed_iff : s.rx ≠ .off ↔ s.kind = .read ∧ Listens s.phase
  waits_for_read : (s.phase = .pause ∨ s.phase = .capture ∨ s.phase = .backoff) → s.kind = .read
  backoff_attempt : s.phase = .backoff → 2 ≤ s.attempt
  tx_bound : s.phase = .tx → s.txIdx ≤ s.txFrame.length
  running : s.phase ≠ .idle → RunningInv s

theorem attemptLimit_bounds {c : Config} (hl : c.legal = true) (op : TransportOp) :
    1 ≤ attemptLimit c op ∧ attemptLimit c op ≤ 255 := by
  obtain ⟨hmax, hchk, -⟩ := Config.bounds_of_legal hl
  cases op with
  | readReg => exact ⟨le_rfl, Nat.le_of_ble_eq_true rfl⟩
  | readInt => exact hmax
  | readU32 => exact hmax
  | writeReg => exact ⟨le_rfl, Nat.le_of_ble_eq_true rfl⟩
  | writeChecked => exact hchk

theorem LoopInv.of_inv (h : Inv s) : LoopInv s where
  legal := h.legal
  status := h.status_produced
  rx_consistent := (rxConsistent_iff ..).2 ⟨h.full_iff, h.buf_bound, h.buf_empty, h.buf_started, h.buf_head⟩
  idle_clear := h.idle_clear
  armed_iff := ⟨h.armed_phase, fun ⟨hk, hp⟩ => h.stays_armed hk hp⟩
  waits_for_read := h.waits_for_read
  backoff_attempt := h.backoff_attempt
  tx_bound hp := (h.tx_unfinished hp).le
  running hp :=
    { frame := h.frame_of_stage hp
      stage_kind := h.stage_of_op hp
      closed := h.response_closed hp
      attempts := fun hk => (h.attempt_range hp hk).imp_right And.left
      target := h.read_target hp }

/-- In a state of the invariant nothing is due (R148). -/
theorem Inv.settleOnce_eq_none (h : Inv s) : settleOnce s = none :=
  settleOnce_eq_none_iff.2 ⟨fun hp => ⟨(h.tx_unfinished hp).ne, h.timer_tx hp⟩, fun hp => h.timer_pause (.inl hp),
    fun hp => ⟨h.capture_open hp, h.timer_capture hp⟩, fun hp => h.timer_pause (.inr hp)⟩

/-- Where nothing is due, the loop's invariant is the whole invariant. -/
theorem LoopInv.inv (h : LoopInv s) (hq : settleOnce s = none) : Inv s := by
  obtain ⟨hfull, hbound, hempty, hstarted, hhead⟩ := (rxConsistent_iff ..).1 h.rx_consistent
  obtain ⟨htx, hpause, hcapture, hbackoff⟩ := settleOnce_eq_none_iff.1 hq
  exact
    { legal := h.legal
      idle_clear := h.idle_clear
      armed_phase := h.armed_iff.1
      stays_armed := fun hk hp => h.armed_iff.2 ⟨hk, hp⟩
      waits_for_read := h.waits_for_read
      backoff_attempt := h.backoff_attempt
      full_iff := hfull
      buf_bound := hbound
      buf_empty := hempty
      buf_started := hstarted
      buf_head := hhead
      frame_of_stage := fun hp => (h.running hp).frame
      tx_unfinished := fun hp => lt_of_le_of_ne (h.tx_bound hp) (htx hp).1
      timer_tx := fun hp => (htx hp).2
      timer_pause := fun hp => hp.elim hpause hbackoff
      timer_capture := fun hp => (hcapture hp).2
      capture_open := fun hp => (hcapture hp).1
      attempt_range := fun hp hk => by
        obtain ⟨hfirst, hlast⟩ := (h.running hp).attempts hk
        refine ⟨hfirst, hlast, ?_⟩
        rw [((h.running hp).target hk).1]
        exact (attemptLimit_bounds h.legal s.op).2
      stage_of_op := fun hp => (h.running hp).stage_kind
      read_target := fun hp => (h.running hp).target
      response_closed := fun hp => (h.running hp).closed
      status_produced := h.status }

/-! ### The starts and the end of a sub-transaction -/

theorem LoopInv.finish (hl : s.cfg.legal = true) {st : BitVec 2} (hst : st ≠ statusReserved) (d : Word32) :
    LoopInv (finish st d s) where
  legal := hl
  status := hst
  rx_consistent := rfl
  idle_clear _ := ⟨rfl, rfl, rfl, rfl⟩
  armed_iff := by simp
  waits_for_read hp := by simp at hp
  backoff_attempt hp := by simp at hp
  tx_bound hp := by simp at hp
  running hp := absurd rfl hp

/-- A read sub-transaction that may make another attempt starts it. -/
theorem LoopInv.startAttempt (hl : s.cfg.legal = true) (hst : s.respStatus ≠ statusReserved) (hk : s.kind = .read)
    (hsk : stageKindOk s.op s.stage .read = true) (hv : s.respValid = false) (hn : 1 ≤ s.attempt ∧ s.attempt ≤ s.limit)
    (ht : s.limit = attemptLimit s.cfg s.op ∧ s.curAddr = readAddress s.cfg s.addr s.op) :
    LoopInv (startAttempt s) where
  legal := hl
  status := hst
  rx_consistent := rfl
  idle_clear hp := by simp at hp
  armed_iff := by simp [hk, Listens]
  waits_for_read _ := hk
  backoff_attempt hp := by simp at hp
  tx_bound _ := Nat.zero_le _
  running _ :=
    { frame := by simp [currentFrame, hk]
      stage_kind := by simpa [hk] using hsk
      closed := hv
      attempts := fun _ => hn
      target := fun _ => ht }

theorem LoopInv.startRead (hl : s.cfg.legal = true) (hst : s.respStatus ≠ statusReserved)
    (hsk : stageKindOk s.op s.stage .read = true) (hv : s.respValid = false) :
    LoopInv (startRead (readAddress s.cfg s.addr s.op) (attemptLimit s.cfg s.op) s) :=
  LoopInv.startAttempt hl hst rfl hsk hv ⟨le_rfl, (attemptLimit_bounds hl s.op).1⟩ ⟨rfl, rfl⟩

theorem LoopInv.startWrite (hl : s.cfg.legal = true) (hst : s.respStatus ≠ statusReserved)
    (hsk : stageKindOk s.op s.stage .write = true) (hv : s.respValid = false) :
    LoopInv (startWrite s.addr s.data s) where
  legal := hl
  status := hst
  rx_consistent := rfl
  idle_clear hp := by simp at hp
  armed_iff := by simp
  waits_for_read hp := by simp at hp
  backoff_attempt hp := by simp at hp
  tx_bound _ := Nat.zero_le _
  running _ :=
    { frame := rfl
      stage_kind := hsk
      closed := hv
      attempts := fun hk => by simp at hk
      target := fun hk => by simp at hk }

/-- The end of a sub-transaction, whatever phase it ends in: the command is over, or its next one starts. -/
theorem LoopInv.subDone (hl : s.cfg.legal = true) (hst : s.respStatus ≠ statusReserved) (hv : s.respValid = false)
    (ok : Bool) (v : Word32) : LoopInv (subDone ok v s) := by
  obtain ⟨st, d, hres, h⟩ | ⟨hop, -, -, h⟩ | ⟨hop, -, -, h⟩ := subDone_cases ok v s <;> rw [h]
  · exact LoopInv.finish hl hres d
  · exact LoopInv.startWrite (s := { s with before := lowByte v, stage := .write }) hl hst (by simp [hop, stageKindOk]) hv
  · have hread := LoopInv.startRead (s := { s with stage := .after }) hl hst (by simp [hop, stageKindOk]) hv
    simpa [hop, readAddress, attemptLimit] using hread

/-! ### `Settle` keeps it -/

theorem LoopInv.attemptFailed (h : LoopInv s) (hp : s.phase ≠ .idle) : LoopInv (attemptFailed s) := by
  have hrun := h.running hp
  obtain ⟨hk, hlt, ho⟩ | ⟨-, ho⟩ := attemptFailed_cases s <;> rw [ho]
  · obtain ⟨hfirst, -⟩ := hrun.attempts hk
    exact
      { legal := h.legal
        status := h.status
        rx_consistent := rfl
        idle_clear := fun hp => by simp at hp
        armed_iff := by simp
        waits_for_read := fun _ => hk
        backoff_attempt := fun _ => Nat.succ_le_succ hfirst
        tx_bound := fun hp => by simp at hp
        running := fun _ =>
          { frame := hrun.frame
            stage_kind := hrun.stage_kind
            closed := hrun.closed
            attempts := fun _ => ⟨Nat.le_add_left .., hlt⟩
            target := hrun.target } }
  · exact LoopInv.subDone h.legal h.status hrun.closed false 0

/-- From one phase in which the unit is armed to the next, with the timer restarted. -/
theorem LoopInv.waitIn (h : LoopInv s) (hk : s.kind = .read) (hp : Listens s.phase) {p : Phase}
    (hp' : p = .pause ∨ p = .capture) : LoopInv { s with phase := p, timer := 0 } := by
  have hrun := h.running (by obtain hp | hp | hp := hp <;> simp [hp])
  have harmed := h.armed_iff.2 ⟨hk, hp⟩
  exact
    { legal := h.legal
      status := h.status
      rx_consistent := h.rx_consistent
      idle_clear := fun hi => by simp_all
      armed_iff := ⟨fun _ => ⟨hk, .inr hp'⟩, fun _ => harmed⟩
      waits_for_read := fun _ => hk
      backoff_attempt := fun hb => by simp_all
      tx_bound := fun ht => by simp_all
      running := fun _ => { hrun with } }

theorem LoopInv.settleOnce (h : LoopInv s) (hs : settleOnce s = some t) : LoopInv t := by
  obtain ⟨hp, -, rfl⟩ | ⟨hp, -, -, rfl⟩ | ⟨hp, -, rfl⟩ | ⟨hp, -, rfl⟩ | ⟨hp, -, -, rfl⟩ | ⟨hp, -, rfl⟩ :=
    settleOnce_cases hs
  all_goals have hrun := h.running (by simp [hp])
  · unfold txDone
    split
    next hk => exact h.waitIn hk (.inl hp) (.inl rfl)
    next => exact LoopInv.subDone h.legal h.status hrun.closed true 0
  · exact h.attemptFailed (by simp [hp])
  · exact h.waitIn (h.waits_for_read (.inl hp)) (.inr (.inl hp)) (.inr rfl)
  · rw [replyCaptured_eq]
    exact LoopInv.subDone (s := recordReply s) h.legal h.status hrun.closed true (replyValue s.rxBuf)
  · exact h.attemptFailed (by simp [hp])
  · have hk := h.waits_for_read (.inr (.inr hp))
    exact LoopInv.startAttempt h.legal h.status hk (hk ▸ hrun.stage_kind) hrun.closed (hrun.attempts hk) (hrun.target hk)

/-- `Settle` turns the loop's invariant into the whole invariant. -/
theorem LoopInv.inv_settle (h : LoopInv s) : Inv (settle s) :=
  (settle_induct (fun _ _ => LoopInv.settleOnce) h).inv (settleOnce_settle h.legal)

/-! ### Every event keeps it -/

/-- An accepted word: the command completes, or its first sub-transaction starts. -/
theorem LoopInv.acceptBody (hl : s.cfg.legal = true) (hst : s.respStatus ≠ statusReserved) (hv : s.respValid = false)
    (d : Decoded) : LoopInv (acceptBody s.cfg d s) := by
  obtain ⟨st, hres, h⟩ | ⟨op, st, a8, v, hsk, h⟩ | ⟨a8, v, h⟩ := acceptBody_cases s.cfg d
  · obtain ⟨v, k, h⟩ := h s
    rw [h]
    exact LoopInv.finish (s := { s with crc := k }) hl hres v
  · rw [h]
    exact LoopInv.startRead (s := enterStage st (latch op a8 v s)) hl hst hsk hv
  · rw [h]
    exact LoopInv.startWrite (s := enterStage .main (latch .writeReg a8 v s)) hl hst rfl hv

/-- The events to come are not the block's. -/
theorem Inv.withEvents (h : Inv s) (evs : List Event) : Inv (Machine.withEvents evs s) :=
  { h with }

theorem LoopInv.onRx (h : LoopInv s) (b : Byte) : LoopInv (onRx b s) := by
  have hrx := rxConsistent_onRx b h.rx_consistent
  have hoff := onRx_rx_eq_off_iff b s
  obtain ⟨rx, buf, ho⟩ := onRx_eq b s
  rw [ho] at hrx hoff ⊢
  exact
    { legal := h.legal
      status := h.status
      rx_consistent := hrx
      idle_clear := fun hp => (h.idle_clear hp).imp_left hoff.2
      armed_iff := (not_congr hoff).trans h.armed_iff
      waits_for_read := h.waits_for_read
      backoff_attempt := h.backoff_attempt
      tx_bound := h.tx_bound
      running := fun hp => { h.running hp with } }

theorem LoopInv.onTxAccept (h : LoopInv s) : LoopInv (onTxAccept s) := by
  obtain ⟨-, ho⟩ | ⟨b, hb, ho⟩ := onTxAccept_cases s <;> rw [ho]
  · exact h
  · obtain ⟨hp, hbyte⟩ := (txByte_eq_some_iff b).1 hb
    obtain ⟨hlt, -⟩ := List.getElem?_eq_some_iff.1 hbyte
    have hrun := h.running (by simp [hp])
    exact
      { legal := h.legal
        status := h.status
        rx_consistent := h.rx_consistent
        idle_clear := fun hi => by simp [hp] at hi
        armed_iff := h.armed_iff
        waits_for_read := h.waits_for_read
        backoff_attempt := h.backoff_attempt
        tx_bound := fun _ => hlt
        running := fun _ => { hrun with } }

theorem LoopInv.onTick (h : LoopInv s) : LoopInv (onTick s) := by
  unfold Machine.onTick
  split
  · exact h
  next hp =>
    have hrun := h.running hp
    exact
      { legal := h.legal
        status := h.status
        rx_consistent := h.rx_consistent
        idle_clear := fun hi => absurd hi hp
        armed_iff := h.armed_iff
        waits_for_read := h.waits_for_read
        backoff_attempt := h.backoff_attempt
        tx_bound := h.tx_bound
        running := fun _ => { hrun with } }

/-- The reset state satisfies the invariant (70_reset_and_hazards.md R260, R261). -/
theorem inv_resetState (hl : s.cfg.legal = true) : Inv (resetState s) :=
  LoopInv.inv
    { legal := hl
      status := show (0 : BitVec 2) ≠ statusReserved by decide
      rx_consistent := rfl
      idle_clear := fun _ => ⟨rfl, rfl, rfl, rfl⟩
      armed_iff := by simp [State.reset]
      waits_for_read := fun hp => by simp [State.reset] at hp
      backoff_attempt := fun hp => by simp [State.reset] at hp
      tx_bound := fun hp => by simp [State.reset] at hp
      running := fun hp => absurd rfl hp }
    (settleOnce_idle rfl)

theorem LoopInv.handle (h : LoopInv s) (ev : Event) : LoopInv (handle ev s) := by
  cases ev with
  | reset => exact .of_inv (inv_resetState h.legal)
  | cmd w =>
    by_cases hp : s.phase = .idle
    · rw [handle_cmd_idle w hp]
      exact LoopInv.acceptBody (s := openCommand s) h.legal h.status rfl (decode w)
    · rwa [handle_cmd_busy w hp]
  | rxByte b => exact h.onRx b
  | txAccept => exact h.onTxAccept
  | tick => exact h.onTick

/-- A word presented to a busy block is held, and the step changes nothing (R143). -/
theorem Inv.settle_handle_cmd_busy (h : Inv s) (w : CmdWord) (hp : s.phase ≠ .idle) : settle (handle (.cmd w) s) = s := by
  rw [handle_cmd_busy w hp]
  exact settle_of_quiescent h.settleOnce_eq_none

/-- Every step keeps the invariant. -/
theorem inv_step (h : Inv s) (hs : step s = .next t) : Inv t := by
  obtain ⟨-, rfl⟩ | ⟨rest, -, rfl⟩ | ⟨ev, rest, -, -, rfl⟩ := step_handle_cases hs
  · exact h
  · exact inv_resetState h.legal
  · exact ((LoopInv.of_inv (h.withEvents rest)).handle ev).inv_settle

end Sys2Proof.Machine

namespace Sys2Proof

open Sys2Proof.Machine

/-- Settles O57: the configuration and the events to come are the only elements not at their reset value. -/
theorem resetSatisfiesTheInvariant : Obligations.ResetSatisfiesTheInvariant := fun c evs hl =>
  inv_resetState (s := { State.reset with cfg := c, events := evs }) hl

/-- Settles O58: the event's rule keeps the loop's invariant, and `Settle` restores the whole of it. -/
theorem everyStepKeepsTheInvariant : Obligations.EveryStepKeepsTheInvariant := fun _ _ => inv_step

end Sys2Proof
end

section
/-! Who writes the records of the state: the configuration and the events to come (10_state.md R20), the CRC register (R21),
the wire (R34) and the response registers (R33). -/

namespace Sys2Proof.Machine

variable {s t : State}

/-! ### The wire (R34) -/

theorem txValid_iff (s : State) : txValid s = true ↔ s.phase = .tx ∧ s.txIdx < s.txFrame.length := by
  simp [txValid]

/-- Beside a byte accepted, no event's rule emits anything. -/
theorem handle_wire {ev : Event} (hev : ev ≠ .txAccept) (s : State) : (handle ev s).wire = s.wire := by
  cases ev with
  | reset => rfl
  | cmd w =>
    by_cases hp : s.phase = .idle
    · rw [handle_cmd_idle w hp]
      obtain ⟨st, -, h⟩ | ⟨op, st, a8, v, -, h⟩ | ⟨a8, v, h⟩ := acceptBody_cases s.cfg (decode w)
      · obtain ⟨v, k, h⟩ := h (openCommand s)
        rw [h]
        rfl
      · rw [h]
        rfl
      · rw [h]
        rfl
    · rw [handle_cmd_busy w hp]
  | rxByte b =>
    obtain ⟨rx, buf, h⟩ := onRx_eq b s
    simp only [handle, h]
  | txAccept => exact absurd rfl hev
  | tick =>
    simp only [handle, onTick]
    split <;> rfl

theorem onTxAccept_wire_of_txValid (h : txValid s = true) :
    ∃ b, s.txFrame[s.txIdx]? = some b ∧ (onTxAccept s).wire = s.wire ++ [b] := by
  obtain ⟨hp, hlt⟩ := (txValid_iff s).1 h
  have hb := List.getElem?_eq_getElem hlt
  obtain ⟨hnone, -⟩ | ⟨b, hsome, ho⟩ := onTxAccept_cases s
  · simp [(txByte_eq_some_iff _).2 ⟨hp, hb⟩] at hnone
  · exact ⟨b, ((txByte_eq_some_iff b).1 hsome).2, by rw [ho]⟩

theorem onTxAccept_of_not_txValid (h : txValid s = false) : onTxAccept s = s := by
  obtain ⟨-, ho⟩ | ⟨b, hsome, -⟩ := onTxAccept_cases s
  · exact ho
  · obtain ⟨hp, hb⟩ := (txByte_eq_some_iff b).1 hsome
    have := (txValid_iff s).2 ⟨hp, (List.getElem?_eq_some_iff.1 hb).1⟩
    simp [h] at this

/-! ### The CRC register (R21) -/

/-- What an accepted word leaves in the register: a CRC command's value, or what was there. -/
theorem acceptBody_crc (c : Config) (d : Decoded) (s : State) :
    (acceptBody c d s).crc = s.crc ∨
    ∃ b, (d = .cmd (.crcSeed b) ∧ (acceptBody c d s).crc = b) ∨
      (d = .cmd (.crcUpdate b) ∧ (acceptBody c d s).crc = crcByte c.crcReflectIn s.crc b) := by
  cases d with
  | illegal why => exact .inl rfl
  | cmd i =>
    cases i with
    | crcSeed a8 => exact .inr ⟨a8, .inl ⟨rfl, rfl⟩⟩
    | crcUpdate a8 => exact .inr ⟨a8, .inr ⟨rfl, rfl⟩⟩
    | readReg a8 => exact .inl rfl
    | readInt a8 => exact .inl rfl
    | readU32 a8 => exact .inl rfl
    | writeReg a8 d32 => exact .inl rfl
    | writeChecked a8 d32 => exact .inl rfl

/-- Beside a word presented and Reset, no event's rule writes the register. -/
theorem handle_crc {ev : Event} (hcmd : ∀ w, ev ≠ .cmd w) (hreset : ev ≠ .reset) (s : State) :
    (handle ev s).crc = s.crc := by
  obtain ⟨rx, buf, wire, i, n, h⟩ := handle_line_eq hcmd hreset s
  rw [h]

/-- The state with another value in the CRC register. -/
def withCrc (c : Byte) (s : State) : State := { s with crc := c }

theorem subDone_withCrc (c : Byte) (ok : Bool) (v : Word32) (s : State) :
    subDone ok v (withCrc c s) = withCrc c (subDone ok v s) := by
  have hop : (withCrc c s).op = s.op := rfl
  have hst : (withCrc c s).stage = s.stage := rfl
  unfold subDone
  rw [hop]
  cases s.op with
  | readReg => cases ok <;> rfl
  | readInt => cases ok <;> rfl
  | readU32 => cases ok <;> rfl
  | writeReg => cases ok <;> rfl
  | writeChecked =>
    simp only [subDoneWriteChecked, hst]
    cases s.stage <;> cases ok <;> rfl

theorem attemptFailed_withCrc (c : Byte) (s : State) : attemptFailed (withCrc c s) = withCrc c (attemptFailed s) := by
  unfold attemptFailed
  split
  next h => rw [if_pos (show s.kind = .read ∧ s.attempt < s.limit from h)]; rfl
  next h =>
    rw [if_neg (show ¬ (s.kind = .read ∧ s.attempt < s.limit) from h)]
    exact subDone_withCrc c false 0 (disarm s)

theorem txDone_withCrc (c : Byte) (s : State) : txDone (withCrc c s) = withCrc c (txDone s) := by
  have hk : (withCrc c s).kind = s.kind := rfl
  unfold txDone
  rw [hk]
  cases s.kind with
  | read => rfl
  | write => exact subDone_withCrc c true 0 s

theorem replyCaptured_withCrc (c : Byte) (s : State) : replyCaptured (withCrc c s) = withCrc c (replyCaptured s) :=
  subDone_withCrc c true (replyValue s.rxBuf) (recordReply s)

theorem settle_withCrc (c : Byte) (s : State) : settle (withCrc c s) = withCrc c (settle s) :=
  settle_rel (R := fun s t => t = withCrc c s) (h := rfl) fun s t h => by
    subst h
    exact settleOnce_rel ⟨rfl, rfl, rfl, rfl, rfl, rfl⟩ (fun _ => txDone_withCrc c s) (fun _ => attemptFailed_withCrc c s)
      (fun _ => rfl) (fun _ => replyCaptured_withCrc c s) (fun _ => rfl)

/-- The rule of an event that is no CRC command and no Reset does the same whatever the register holds. -/
theorem handle_withCrc (c : Byte) {ev : Event} (hreset : ev ≠ .reset)
    (hcmd : ∀ w b, ev = .cmd w → decode w ≠ .cmd (.crcSeed b) ∧ decode w ≠ .cmd (.crcUpdate b)) (s : State) :
    handle ev (withCrc c s) = withCrc c (handle ev s) := by
  cases ev with
  | reset => exact absurd rfl hreset
  | cmd w =>
    by_cases hp : s.phase = .idle
    · rw [handle_cmd_idle w hp, handle_cmd_idle w (s := withCrc c s) hp]
      have hw := fun b => hcmd w b rfl
      cases hd : decode w with
      | illegal why => rfl
      | cmd i =>
        cases i with
        | crcSeed b => exact absurd hd (hw b).1
        | crcUpdate b => exact absurd hd (hw b).2
        | readReg a8 => rfl
        | readInt a8 => rfl
        | readU32 a8 => rfl
        | writeReg a8 d32 => rfl
        | writeChecked a8 d32 => rfl
    · rw [handle_cmd_busy w hp, handle_cmd_busy w (s := withCrc c s) hp]
  | rxByte b =>
    have hr : (withCrc c s).rx = s.rx := rfl
    simp only [handle, onRx, hr]
    cases s.rx with
    | off => rfl
    | hunt => exact (apply_ite (withCrc c) (b = s.cfg.sync) { s with rxBuf := [b], rx := .collect } s).symm
    | collect => rfl
    | full => rfl
  | txAccept =>
    have hb : txByte (withCrc c s) = txByte s := rfl
    simp only [handle, onTxAccept, hb]
    split <;> rfl
  | tick =>
    exact (apply_ite (withCrc c) (s.phase = .idle) s { s with timer := s.timer + 1 }).symm

/-- So does the step of any other event. -/
theorem step_withCrc (c : Byte)
    (hcmd : ∀ w b rest, s.events = .cmd w :: rest → decode w ≠ .cmd (.crcSeed b) ∧ decode w ≠ .cmd (.crcUpdate b))
    (hreset : ∀ rest, s.events ≠ .reset :: rest) (h : step s = .next t) : step (withCrc c s) = .next (withCrc c t) := by
  obtain ⟨hl, -⟩ := step_cases h
  obtain ⟨he, rfl⟩ | ⟨rest, he, -⟩ | ⟨ev, rest, hev, he, rfl⟩ := step_handle_cases h
  · exact step_of_events_nil (s := withCrc c t) hl he
  · exact absurd he (hreset rest)
  · have hhandle : handle ev (withEvents rest (withCrc c s)) = withCrc c (handle ev (withEvents rest s)) :=
      handle_withCrc c hev (fun w b hw => hcmd w b rest (hw ▸ he)) (withEvents rest s)
    rw [step_of_handle (s := withCrc c s) hl he hev, hhandle, settle_withCrc]

/-! ### The response registers (R33) -/

/-- The response registers hold what they held. -/
abbrev SameResponse (s t : State) : Prop :=
  t.respValid = s.respValid ∧ t.respStatus = s.respStatus ∧ t.respData = s.respData ∧ t.respCrcOk = s.respCrcOk

/-- The command is over, and its response stands (R156). -/
abbrev Finished (t : State) : Prop := t.phase = .idle ∧ t.respValid = true ∧ t.respCrcOk = t.crcAcc

theorem subDone_response (ok : Bool) (v : Word32) (s : State) :
    SameResponse s (subDone ok v s) ∨ Finished (subDone ok v s) := by
  obtain ⟨st, d, -, h⟩ | ⟨-, -, -, h⟩ | ⟨-, -, -, h⟩ := subDone_cases ok v s <;> rw [h]
  · exact .inr ⟨rfl, rfl, rfl⟩
  · exact .inl ⟨rfl, rfl, rfl, rfl⟩
  · exact .inl ⟨rfl, rfl, rfl, rfl⟩

theorem attemptFailed_response (s : State) : SameResponse s (attemptFailed s) ∨ Finished (attemptFailed s) := by
  obtain ⟨-, -, h⟩ | ⟨-, h⟩ := attemptFailed_cases s <;> rw [h]
  · exact .inl ⟨rfl, rfl, rfl, rfl⟩
  · exact subDone_response false 0 (disarm s)

theorem settleOnce_response (h : settleOnce s = some t) : SameResponse s t ∨ Finished t := by
  obtain ⟨-, -, rfl⟩ | ⟨-, -, -, rfl⟩ | ⟨-, -, rfl⟩ | ⟨-, -, rfl⟩ | ⟨-, -, -, rfl⟩ | ⟨-, -, rfl⟩ := settleOnce_cases h
  · unfold txDone
    split
    · exact .inl ⟨rfl, rfl, rfl, rfl⟩
    · exact subDone_response true 0 s
  · exact attemptFailed_response s
  · exact .inl ⟨rfl, rfl, rfl, rfl⟩
  · rw [replyCaptured_eq]
    exact subDone_response _ _ _
  · exact attemptFailed_response s
  · exact .inl ⟨rfl, rfl, rfl, rfl⟩

/-- `Settle` writes the response registers only where it ends the command. -/
theorem settle_response (s : State) : SameResponse s (settle s) ∨ Finished (settle s) := by
  refine settle_induct (P := fun u => SameResponse s u ∨ Finished u) (fun u v hu huv => ?_) (.inl ⟨rfl, rfl, rfl, rfl⟩)
  obtain ⟨hvalid, hstatus, hdata, hcrc⟩ | ⟨hidle, -, -⟩ := hu
  · refine (settleOnce_response huv).imp_left fun ⟨h1, h2, h3, h4⟩ => ?_
    exact ⟨h1.trans hvalid, h2.trans hstatus, h3.trans hdata, h4.trans hcrc⟩
  · rw [settleOnce_idle hidle] at huv
    cases huv

/-- An event of the line or the clock leaves the response registers and the phase to `Settle`. -/
theorem handle_response {ev : Event} (hcmd : ∀ w, ev ≠ .cmd w) (hreset : ev ≠ .reset) (s : State) :
    SameResponse s (handle ev s) ∧ (handle ev s).phase = s.phase := by
  obtain ⟨rx, buf, wire, i, n, h⟩ := handle_line_eq hcmd hreset s
  rw [h]
  exact ⟨⟨rfl, rfl, rfl, rfl⟩, rfl⟩

/-- An accepted word completes, or clears `resp_valid` and leaves the other registers (R144). -/
theorem acceptBody_response (c : Config) (d : Decoded) (s : State) :
    Finished (acceptBody c d s) ∨ ((acceptBody c d s).phase ≠ .idle ∧ SameResponse s (acceptBody c d s)) := by
  obtain ⟨st, -, h⟩ | ⟨op, st, a8, v, -, h⟩ | ⟨a8, v, h⟩ := acceptBody_cases c d
  · obtain ⟨v, k, h⟩ := h s
    rw [h]
    exact .inl ⟨rfl, rfl, rfl⟩
  · rw [h]
    exact .inr ⟨by simp [startRead], rfl, rfl, rfl, rfl⟩
  · rw [h]
    exact .inr ⟨by simp, rfl, rfl, rfl, rfl⟩

end Sys2Proof.Machine

namespace Sys2Proof

open Sys2Proof.Machine

/-- Settles O59: `stepEvent` keeps both fields, and the step itself takes the event. -/
theorem noEventChangesTheConfiguration : Obligations.NoEventChangesTheConfiguration := by
  intro s t h
  obtain ⟨-, rfl⟩ | ⟨ev, rest, he, h⟩ := step_next_cases h
  · exact ⟨rfl, .inl rfl⟩
  · have hrest : t.events = rest := stepEvent_events h
    exact ⟨stepEvent_cfg (s := withEvents rest s) h, .inr ⟨ev, by rw [hrest, he]⟩⟩

/-- Settles O43: only the rule of `TxAccept` emits, and `Settle` emits nothing. -/
theorem wireGrowsByTheOfferedByte : Obligations.WireGrowsByTheOfferedByte := by
  intro s t h
  obtain ⟨he, rfl⟩ | ⟨rest, he, rfl⟩ | ⟨ev, rest, -, he, rfl⟩ := step_handle_cases h
  · exact ⟨fun _ => rfl, fun rest hacc => by simp [he] at hacc⟩
  · exact ⟨fun _ => rfl, fun rest' hacc => by simp [he] at hacc⟩
  · rw [settle_wire]
    constructor
    · intro hno
      exact handle_wire (fun hev => hno rest (hev ▸ he)) _
    · intro rest' hacc
      obtain ⟨rfl, rfl⟩ : ev = .txAccept ∧ rest = rest' := by simpa [he] using hacc
      refine ⟨onTxAccept_wire_of_txValid (s := withEvents rest s), fun hv => ?_⟩
      have hsame : handle .txAccept (withEvents rest s) = withEvents rest s := onTxAccept_of_not_txValid hv
      rw [hsame, withEvents_wire]

/-- Settles O19: the register's writers by the event's rule, and that the rule and `Settle` commute with any change of it. -/
theorem crcRegisterIsTheHostsAlone : Obligations.CrcRegisterIsTheHostsAlone := by
  constructor
  · intro s t h
    obtain ⟨-, rfl⟩ | ⟨rest, he, rfl⟩ | ⟨ev, rest, hreset, he, rfl⟩ := step_handle_cases h
    · exact .inl rfl
    · exact .inr (.inl ⟨rest, he, rfl⟩)
    · rw [settle_crc]
      by_cases hcmd : ∃ w, ev = .cmd w
      · obtain ⟨w, rfl⟩ := hcmd
        by_cases hp : s.phase = .idle
        · rw [handle_cmd_idle w (s := withEvents rest s) hp]
          refine (acceptBody_crc s.cfg (decode w) (openCommand (withEvents rest s))).imp_right ?_
          rintro ⟨b, hb⟩
          exact .inr ⟨w, rest, b, he, hp, hb⟩
        · exact .inl (by rw [handle_cmd_busy w (s := withEvents rest s) hp]; rfl)
      · exact .inl (handle_crc (fun w hw => hcmd ⟨w, hw⟩) hreset _)
  · exact fun s t c hcmd hreset h => step_withCrc c hcmd hreset h

/-- Settles O47: a word is held, completes or opens its command at accept, where `Settle` has nothing to do; another event
writes the registers only where `Settle` ends the command. -/
theorem responseWrittenOnlyAtAcceptAndFinish : Obligations.ResponseWrittenOnlyAtAcceptAndFinish := by
  intro s t hinv hreset h
  obtain ⟨-, rfl⟩ | ⟨rest, he, -⟩ | ⟨ev, rest, hev, he, rfl⟩ := step_handle_cases h
  · exact .inl ⟨rfl, rfl, rfl, rfl⟩
  · exact absurd he (hreset rest)
  · by_cases hcmd : ∃ w, ev = .cmd w
    · obtain ⟨w, rfl⟩ := hcmd
      by_cases hp : s.phase = .idle
      · rw [settle_handle_cmd_idle (s := withEvents rest s) hinv.legal w hp]
        obtain ⟨hidle, hvalid, hcrc⟩ | ⟨hbusy, hresp⟩ :=
          acceptBody_response s.cfg (decode w) (openCommand (withEvents rest s))
        · exact .inr (.inr ⟨hidle, .inr ⟨w, rest, he⟩, hvalid, hcrc⟩)
        · exact .inr (.inl ⟨hp, hbusy, ⟨w, rest, he⟩, hresp⟩)
      · rw [(hinv.withEvents rest).settle_handle_cmd_busy w hp]
        exact .inl ⟨rfl, rfl, rfl, rfl⟩
    · obtain ⟨hresp, hphase⟩ := handle_response (fun w hw => hcmd ⟨w, hw⟩) hev (withEvents rest s)
      by_cases hp : s.phase = .idle
      · rw [settle_of_quiescent (settleOnce_idle (hphase.trans hp))]
        exact .inl hresp
      · obtain ⟨h1, h2, h3, h4⟩ | ⟨hidle, hvalid, hcrc⟩ := settle_response (handle ev (withEvents rest s))
        · obtain ⟨h1', h2', h3', h4'⟩ := hresp
          exact .inl ⟨h1.trans h1', h2.trans h2', h3.trans h3', h4.trans h4'⟩
        · exact .inr (.inr ⟨hidle, .inl hp, hvalid, hcrc⟩)

end Sys2Proof
end

section
/-! Elements that carry no meaning are never seen (10_state.md R22, 93_implementation_defined.md U10): each operation of the
machine, from a state and from the same state with them erased, ends in states that differ only in them. -/

namespace Sys2Proof.Machine

variable {s t : State}

/-! ### Erasing -/

theorem eraseMeaningless_op (hp : s.phase ≠ .idle) : (eraseMeaningless s).op = s.op := if_pos hp
theorem eraseMeaningless_stage (hp : s.phase ≠ .idle) : (eraseMeaningless s).stage = s.stage := if_pos hp
theorem eraseMeaningless_kind (hp : s.phase ≠ .idle) : (eraseMeaningless s).kind = s.kind := if_pos hp
theorem eraseMeaningless_attempt (hp : s.phase ≠ .idle) (hk : s.kind = .read) : (eraseMeaningless s).attempt = s.attempt :=
  if_pos ⟨hp, hk⟩
theorem eraseMeaningless_limit (hp : s.phase ≠ .idle) (hk : s.kind = .read) : (eraseMeaningless s).limit = s.limit :=
  if_pos ⟨hp, hk⟩
theorem eraseMeaningless_before (hp : s.phase ≠ .idle) (hst : s.stage = .write ∨ s.stage = .after) :
    (eraseMeaningless s).before = s.before := if_pos ⟨hp, hst⟩

theorem eraseMeaningless_idem (s : State) : eraseMeaningless (eraseMeaningless s) = eraseMeaningless s := by
  by_cases hp : s.phase = .idle
  · simp +contextual [eraseMeaningless, hp]
  · simp +contextual [eraseMeaningless, hp]

/-- What reads no meaningless element is the same of two states that differ only in such elements. -/
theorem SameMeaning.seen {α : Type} {g : State → α} (hg : ∀ s, g (eraseMeaningless s) = g s) (h : SameMeaning s t) :
    g s = g t := by
  rw [← hg s, ← hg t, h]

/-- The operation does the same, in what carries meaning, with the meaningless elements erased before it. -/
abbrev IgnoresMeaningless (f : State → State) (s : State) : Prop := SameMeaning (f (eraseMeaningless s)) (f s)

/-- Such an operation takes two states that differ only in meaningless elements to two such states. -/
theorem SameMeaning.map {f : State → State} (h : SameMeaning s t) (hs : IgnoresMeaningless f s)
    (ht : IgnoresMeaningless f t) : SameMeaning (f s) (f t) := by
  unfold SameMeaning at h
  have hs' : SameMeaning (f (eraseMeaningless s)) (f s) := hs
  have ht' : SameMeaning (f (eraseMeaningless t)) (f t) := ht
  rw [h] at hs'
  exact hs'.symm.trans ht'

/-- An operation that commutes with erasing ignores the meaningless elements. -/
theorem IgnoresMeaningless.of_commutes {f : State → State} (h : f (eraseMeaningless s) = eraseMeaningless (f s)) :
    IgnoresMeaningless f s := by
  unfold IgnoresMeaningless SameMeaning
  rw [h, eraseMeaningless_idem]

/-! ### The end of a sub-transaction -/

theorem finish_ignores (st : BitVec 2) (d : Word32) (hp : s.phase ≠ .idle) : IgnoresMeaningless (finish st d) s := by
  simp [SameMeaning, hp, finish, eraseMeaningless]

theorem subDone_ignores (ok : Bool) (v : Word32) (hp : s.phase ≠ .idle) : IgnoresMeaningless (subDone ok v) s := by
  unfold IgnoresMeaningless subDone subDoneRead subDoneWriteReg
  rw [eraseMeaningless_op hp]
  cases s.op with
  | readReg => cases ok <;> exact finish_ignores _ _ hp
  | readInt => cases ok <;> exact finish_ignores _ _ hp
  | readU32 => cases ok <;> exact finish_ignores _ _ hp
  | writeReg => cases ok <;> exact finish_ignores _ _ hp
  | writeChecked =>
    unfold subDoneWriteChecked
    rw [eraseMeaningless_stage hp]
    cases hst : s.stage with
    | main => exact finish_ignores _ _ hp
    | before =>
      cases ok with
      | false => exact finish_ignores _ _ hp
      | true => simp +contextual [SameMeaning, hp, startWrite, eraseMeaningless]
    | write =>
      cases ok with
      | false => exact finish_ignores _ _ hp
      | true => simp +contextual [SameMeaning, hp, hst, startRead, startAttempt, eraseMeaningless]
    | after =>
      simp only [eraseMeaningless_before hp (.inr hst)]
      cases ok <;> exact finish_ignores _ _ hp

/-! ### The internal transitions -/

theorem txDone_ignores (hp : s.phase ≠ .idle) : IgnoresMeaningless txDone s := by
  unfold IgnoresMeaningless txDone
  rw [eraseMeaningless_kind hp]
  cases hk : s.kind with
  | read => simp +contextual [SameMeaning, hp, hk, eraseMeaningless]
  | write => exact subDone_ignores true 0 hp

/-- Only a read compares `attempt` with `limit`. -/
theorem attemptFailed_ignores (hp : s.phase ≠ .idle) : IgnoresMeaningless attemptFailed s := by
  have hcond : ((eraseMeaningless s).kind = .read ∧ (eraseMeaningless s).attempt < (eraseMeaningless s).limit) ↔
      (s.kind = .read ∧ s.attempt < s.limit) := by
    rw [eraseMeaningless_kind hp]
    refine and_congr_right fun hk => ?_
    rw [eraseMeaningless_attempt hp hk, eraseMeaningless_limit hp hk]
  unfold IgnoresMeaningless attemptFailed
  rw [if_congr hcond rfl rfl]
  split
  next h => simp +contextual [SameMeaning, hp, h.1, disarm, eraseMeaningless]
  next => exact subDone_ignores (s := disarm s) false 0 hp

/-- The record of a captured reply names `cur_addr`, which a read has. -/
theorem replyCaptured_ignores (h : s.phase ≠ .idle ∧ s.kind = .read) : IgnoresMeaningless replyCaptured s := by
  obtain ⟨hp, hk⟩ := h
  have hcommutes : recordReply (eraseMeaningless s) = eraseMeaningless (recordReply s) := by
    simp [hp, hk, recordReply, disarm, eraseMeaningless]
  have hdone := subDone_ignores (s := recordReply s) true (replyValue s.rxBuf) hp
  rwa [IgnoresMeaningless, ← hcommutes] at hdone

theorem startAttempt_ignores (h : s.phase ≠ .idle ∧ s.kind = .read) : IgnoresMeaningless startAttempt s := by
  simp +contextual [SameMeaning, h, startAttempt, eraseMeaningless]

theorem startCapture_ignores (h : s.phase ≠ .idle ∧ s.kind = .read) :
    IgnoresMeaningless (fun s => { s with phase := .capture, timer := 0 }) s := by
  simp +contextual [SameMeaning, h, eraseMeaningless]

/-! ### `Settle` -/

/-- Two states of the loop's invariant that differ only in meaningless elements. -/
def LoopRel (s t : State) : Prop := LoopInv s ∧ LoopInv t ∧ SameMeaning s t

theorem SameMeaning.sameGuards (h : SameMeaning s t) : SameGuards s t where
  cfg := (h.seen (g := State.cfg) fun _ => rfl).symm
  phase := (h.seen (g := State.phase) fun _ => rfl).symm
  txFrame := (h.seen (g := State.txFrame) fun _ => rfl).symm
  txIdx := (h.seen (g := State.txIdx) fun _ => rfl).symm
  timer := (h.seen (g := State.timer) fun _ => rfl).symm
  rx := (h.seen (g := State.rx) fun _ => rfl).symm

/-- A command that waits reads (R140). -/
theorem LoopInv.reads (h : LoopInv s) (hp : s.phase = .pause ∨ s.phase = .capture ∨ s.phase = .backoff) :
    s.phase ≠ .idle ∧ s.kind = .read :=
  ⟨by obtain hp | hp | hp := hp <;> simp [hp], h.waits_for_read hp⟩

/-- The same transition is due in both, and takes them to two states that differ only in meaningless elements. -/
theorem SameMeaning.settleOnce (hs : LoopInv s) (ht : LoopInv t) (h : SameMeaning s t) :
    Option.Rel SameMeaning (settleOnce s) (settleOnce t) := by
  have hg := h.sameGuards
  refine settleOnce_rel hg (fun hp => ?_) (fun hp => ?_) (fun hp => ?_) (fun hp => ?_) (fun hp => ?_)
  all_goals have hp' := hp
  all_goals rw [← hg.phase] at hp'
  · exact h.map (txDone_ignores (by simp [hp])) (txDone_ignores (by simp [hp']))
  · exact h.map (attemptFailed_ignores hp) (attemptFailed_ignores hp')
  · exact h.map (startCapture_ignores (hs.reads (.inl hp))) (startCapture_ignores (ht.reads (.inl hp')))
  · exact h.map (replyCaptured_ignores (hs.reads (.inr (.inl hp)))) (replyCaptured_ignores (ht.reads (.inr (.inl hp'))))
  · exact h.map (startAttempt_ignores (hs.reads (.inr (.inr hp)))) (startAttempt_ignores (ht.reads (.inr (.inr hp'))))

theorem LoopRel.settleOnce (h : LoopRel s t) : Option.Rel LoopRel (settleOnce s) (settleOnce t) := by
  obtain ⟨hs, ht, hst⟩ := h
  have hturn := hst.settleOnce hs ht
  generalize hs' : Machine.settleOnce s = a at hturn
  generalize ht' : Machine.settleOnce t = b at hturn
  cases hturn with
  | none => exact .none
  | some huv => exact .some ⟨hs.settleOnce hs', ht.settleOnce ht', huv⟩

theorem SameMeaning.settle (h : SameMeaning s t) (hs : LoopInv s) (ht : LoopInv t) :
    SameMeaning (settle s) (settle t) :=
  (settle_rel (R := LoopRel) (fun _ _ => LoopRel.settleOnce) ⟨hs, ht, h⟩).2.2

/-! ### The events -/

/-- Opening a read command writes everything a read uses; neither of its first stages uses `before`. -/
theorem openRead_ignores (op : TransportOp) {st : Stage} (hst : st = .main ∨ st = .before) (a8 : Byte) (d : Word32)
    (a : Reg7) (n : Nat) (hp : s.phase = .idle) :
    IgnoresMeaningless (fun s => startRead a n (enterStage st (latch op a8 d (openCommand s)))) s := by
  obtain rfl | rfl := hst <;>
    simp [SameMeaning, startRead, startAttempt, enterStage, latch, openCommand, hp, eraseMeaningless]

/-- Accepting a word, from a state of IDLE: everything the command reads is written first. -/
theorem acceptBody_ignores (c : Config) (d : Decoded) (hp : s.phase = .idle) :
    IgnoresMeaningless (fun s => acceptBody c d (openCommand s)) s := by
  cases d with
  | illegal why => simp [SameMeaning, acceptBody, raiseIllegalCommand, finish, openCommand, hp, eraseMeaningless]
  | cmd i =>
    cases i with
    | crcSeed a8 => simp [SameMeaning, acceptBody, finish, openCommand, hp, eraseMeaningless]
    | crcUpdate a8 => simp [SameMeaning, acceptBody, finish, openCommand, hp, eraseMeaningless]
    | readReg a8 => exact openRead_ignores .readReg (.inl rfl) a8 0 _ _ hp
    | readInt a8 => exact openRead_ignores .readInt (.inl rfl) a8 0 _ _ hp
    | readU32 a8 => exact openRead_ignores .readU32 (.inl rfl) a8 0 _ _ hp
    | writeReg a8 d32 => simp [SameMeaning, acceptBody, startWrite, enterStage, latch, openCommand, hp, eraseMeaningless]
    | writeChecked a8 d32 => exact openRead_ignores .writeChecked (.inr rfl) a8 d32 _ _ hp

theorem onRx_eraseMeaningless (b : Byte) (s : State) : onRx b (eraseMeaningless s) = eraseMeaningless (onRx b s) := by
  have hr : (eraseMeaningless s).rx = s.rx := rfl
  unfold onRx
  rw [hr]
  cases s.rx with
  | off => rfl
  | hunt => exact (apply_ite eraseMeaningless (b = s.cfg.sync) { s with rxBuf := [b], rx := .collect } s).symm
  | collect => rfl
  | full => rfl

theorem onTxAccept_eraseMeaningless (s : State) :
    onTxAccept (eraseMeaningless s) = eraseMeaningless (onTxAccept s) := by
  have hb : txByte (eraseMeaningless s) = txByte s := rfl
  unfold onTxAccept
  rw [hb]
  cases txByte s with
  | none => rfl
  | some b => rfl

theorem onTick_eraseMeaningless (s : State) : onTick (eraseMeaningless s) = eraseMeaningless (onTick s) :=
  (apply_ite eraseMeaningless (s.phase = .idle) s { s with timer := s.timer + 1 }).symm

/-- The rule of every event but Reset, which writes them, ignores the meaningless elements. -/
theorem handle_ignores (ev : Event) (s : State) : IgnoresMeaningless (handle ev) s := by
  cases ev with
  | reset => exact rfl
  | cmd w =>
    by_cases hp : s.phase = .idle
    · rw [IgnoresMeaningless, handle_cmd_idle w hp, handle_cmd_idle w (s := eraseMeaningless s) hp]
      exact acceptBody_ignores s.cfg (decode w) hp
    · exact .of_commutes (by rw [handle_cmd_busy w hp, handle_cmd_busy w (s := eraseMeaningless s) hp])
  | rxByte b => exact .of_commutes (onRx_eraseMeaningless b s)
  | txAccept => exact .of_commutes (onTxAccept_eraseMeaningless s)
  | tick => exact .of_commutes (onTick_eraseMeaningless s)

theorem SameMeaning.withEvents (h : SameMeaning s t) (evs : List Event) :
    SameMeaning (withEvents evs s) (withEvents evs t) :=
  congrArg (Machine.withEvents evs) h

/-- Two states that differ only in meaningless elements step to two such states. -/
theorem SameMeaning.step {s' : State} (hs : Inv s) (hs' : Inv s') (h : SameMeaning s s') (hstep : step s = .next t) :
    ∃ t', step s' = .next t' ∧ SameMeaning t t' := by
  have hevents : s'.events = s.events := (h.seen (g := State.events) fun _ => rfl).symm
  obtain ⟨he, rfl⟩ | ⟨rest, he, rfl⟩ | ⟨ev, rest, hev, he, rfl⟩ := step_handle_cases hstep
  · exact ⟨s', step_of_events_nil hs'.legal (hevents.trans he), h⟩
  · refine ⟨resetState (Machine.withEvents rest s'), step_of_event hs'.legal (hevents.trans he), ?_⟩
    exact (h.withEvents rest).map (f := resetState) rfl rfl
  · refine ⟨_, step_of_handle hs'.legal (hevents.trans he) hev, ?_⟩
    have hloop := (LoopInv.of_inv (hs.withEvents rest)).handle ev
    have hloop' := (LoopInv.of_inv (hs'.withEvents rest)).handle ev
    exact ((h.withEvents rest).map (handle_ignores ev _) (handle_ignores ev _)).settle hloop hloop'

/-! ### What the host sees -/

/-- The status view is the same with the meaningless elements erased: `resp_data` is in it only while a response stands. -/
theorem statusView_eraseMeaningless (s : State) : statusView (eraseMeaningless s) = statusView s := by
  cases hv : s.respValid <;> simp [statusView, eraseMeaningless, cmdReady, crcOut, hv]

end Sys2Proof.Machine

namespace Sys2Proof

open Sys2Proof.Machine

/-- Settles O60: every event's rule and every turn of `Settle` ignore the meaningless elements, and so does what is seen. -/
theorem meaninglessElementsAreUnobservable : Obligations.MeaninglessElementsAreUnobservable := by
  intro s s' t hs hs' h hstep
  obtain ⟨t', hstep', ht⟩ := h.step hs hs' hstep
  exact ⟨t', hstep', ht, ht.seen statusView_eraseMeaningless, ht.seen (g := State.wire) fun _ => rfl,
    ht.seen (g := State.diag) fun _ => rfl⟩

end Sys2Proof
end

section
/-! The encoding (30_encoding.md R80 to R86): the fields of a word, what the decoder answers for them, and that encoding and
decoding undo each other. -/

namespace Sys2Proof

/-! ### The parts of a word -/

/-- The number of two words side by side. -/
theorem toNat_append_eq_add {n m : Nat} (x : BitVec n) (y : BitVec m) :
    (x ++ y).toNat = x.toNat * 2 ^ m + y.toNat := by
  rw [BitVec.toNat_append, ← Nat.shiftLeft_add_eq_or_of_lt y.isLt, Nat.shiftLeft_eq]

/-- A word is its four fields side by side (R80). -/
theorem append_fields (w : CmdWord) : CmdField.op w ++ CmdField.rsv w ++ CmdField.a8 w ++ CmdField.d32 w = w := by
  apply BitVec.eq_of_getLsbD_eq
  intro i hi
  simp only [CmdField.op, CmdField.rsv, CmdField.a8, CmdField.d32, BitVec.getLsbD_append, BitVec.getLsbD_extractLsb']
  split
  next h => simp [h]
  next h =>
    split
    next h' => rw [show 32 + (i - 32) = i by omega]; simp [h']
    next h' =>
      split
      next h'' => rw [show 40 + (i - 32 - 8) = i by omega]; simp [h'']
      next h'' => rw [show 44 + (i - 32 - 8 - 4) = i by omega, decide_eq_true (by omega), Bool.true_and]

/-- The fields of an encoded command, of every command (R80, R96). -/
theorem encode_fields (i : Instr) : Laws.EncodedFields.Statement i := fields_of_append _ _ _ _

/-- The number of an encoded command. -/
theorem encode_toNat (i : Instr) :
    (encode i).toNat = i.opcode.toNat * 2 ^ 44 + i.byteOperand.toNat * 2 ^ 32 + i.dataOperand.toNat := by
  have hrsv : (0 : BitVec 4).toNat = 0 := rfl
  simp only [encode, toNat_append_eq_add, hrsv]
  omega

/-! ### The command of an opcode (R81 to R83) -/

/-- The table gives a command back from its opcode and its operands. -/
theorem instrOfOpcode_operands (i : Instr) : instrOfOpcode i.opcode i.byteOperand i.dataOperand = some i := by
  cases i <;> rfl

/-- The command the table gives has the opcode and the operands it was given. -/
theorem operands_of_instrOfOpcode {op : BitVec 4} {a8 : Byte} {d32 : Word32} {i : Instr}
    (h : instrOfOpcode op a8 d32 = some i) :
    i.opcode = op ∧ i.byteOperand = a8 ∧ i.dataOperand = if i.takesData then d32 else 0 := by
  unfold instrOfOpcode at h
  split at h <;> cases h
  all_goals exact ⟨BitVec.eq_of_toNat_eq (Eq.symm ‹_›), rfl, rfl⟩

/-- The opcodes of R81 are 1 to 7. -/
theorem instrOfOpcode_eq_none_iff (op : BitVec 4) (a8 : Byte) (d32 : Word32) :
    instrOfOpcode op a8 d32 = none ↔ op.toNat = 0 ∨ 8 ≤ op.toNat := by
  unfold instrOfOpcode
  split <;> simp only [reduceCtorEq, false_iff, true_iff, imp_false] at * <;> omega

/-- R82 by the opcode: a command from 3 on names a register. -/
theorem wellFormed_iff (i : Instr) :
    i.wellFormed = true ↔ (3 ≤ i.opcode.toNat → i.byteOperand.getLsbD 7 = false) := by
  cases i <;> simp [Instr.wellFormed, Instr.opcode, Instr.byteOperand]

/-- R83 by the opcode: a command up to 5 takes no data. -/
theorem takesData_eq_false_iff (i : Instr) : i.takesData = false ↔ i.opcode.toNat ≤ 5 := by
  cases i <;> simp [Instr.takesData, Instr.opcode]

/-- Without a data operand the data word is 0. -/
theorem dataOperand_of_takesData_eq_false {i : Instr} (h : i.takesData = false) : i.dataOperand = 0 := by
  cases i <;> simp [Instr.takesData] at h <;> rfl

/-! ### What the decoder answers (R86) -/

/-- The decoder answers a command exactly where none of its checks fails. -/
theorem decode_eq_cmd_iff (w : CmdWord) (i : Instr) : decode w = .cmd i ↔
    instrOfOpcode (CmdField.op w) (CmdField.a8 w) (CmdField.d32 w) = some i ∧ CmdField.rsv w = 0 ∧
    i.wellFormed = true ∧ (i.takesData = false → CmdField.d32 w = 0) := by
  unfold decode
  split
  next h => simp [h]
  next j h =>
    rw [h, Option.some.injEq]
    constructor
    · intro hd
      split_ifs at hd with hrsv hwf hdata
      cases hd
      exact ⟨rfl, not_not.1 hrsv, Bool.eq_true_of_not_eq_false hwf, fun ht => not_not.1 fun h0 => hdata ⟨ht, h0⟩⟩
    · rintro ⟨rfl, hrsv, hwf, hd⟩
      rw [if_neg (by simpa using hrsv), if_neg (by simp [hwf]), if_neg (by simpa using hd)]

/-- A word is illegal exactly where it is no command. -/
theorem exists_decode_eq_illegal_iff (w : CmdWord) :
    (∃ why, decode w = .illegal why) ↔ ¬ ∃ i, decode w = .cmd i := by
  cases decode w <;> simp

/-- The words R85 leaves, by the bits of its list. -/
theorem not_illegalBits_iff (w : CmdWord) : ¬ Machine.IllegalBits w ↔
    ((w.extractLsb' 44 4).toNat ≠ 0 ∧ ¬ 8 ≤ (w.extractLsb' 44 4).toNat) ∧ w.extractLsb' 40 4 = 0 ∧
    (3 ≤ (w.extractLsb' 44 4).toNat → (w.extractLsb' 44 4).toNat ≤ 7 → w.getLsbD 39 = false) ∧
    (1 ≤ (w.extractLsb' 44 4).toNat → (w.extractLsb' 44 4).toNat ≤ 5 → w.extractLsb' 0 32 = 0) := by
  simp only [Machine.IllegalBits, not_or, not_and, not_not, and_assoc, ne_eq, Bool.not_eq_true]

/-- The words of R85, said by the fields: the others are the commands. -/
theorem exists_decode_eq_cmd_iff (w : CmdWord) : (∃ i, decode w = .cmd i) ↔ ¬ Machine.IllegalBits w := by
  have hbit : (CmdField.a8 w).getLsbD 7 = w.getLsbD 39 := by simp [CmdField.a8]
  have hrange := (instrOfOpcode_eq_none_iff (CmdField.op w) (CmdField.a8 w) (CmdField.d32 w)).not
  rw [not_illegalBits_iff]
  constructor
  · rintro ⟨i, h⟩
    obtain ⟨hi, hrsv, hwf, hd⟩ := (decode_eq_cmd_iff w i).1 h
    obtain ⟨hop, ha8, -⟩ := operands_of_instrOfOpcode hi
    rw [wellFormed_iff, hop, ha8, hbit] at hwf
    rw [takesData_eq_false_iff, hop] at hd
    exact ⟨not_or.1 (hrange.1 (by simp [hi])), hrsv, fun h3 _ => hwf h3, fun _ => hd⟩
  · rintro ⟨⟨h0, h8⟩, hrsv, hb, hd⟩
    obtain ⟨i, hi⟩ := Option.ne_none_iff_exists'.1 (hrange.2 (not_or.2 ⟨h0, h8⟩))
    obtain ⟨hop, ha8, -⟩ := operands_of_instrOfOpcode hi
    refine ⟨i, (decode_eq_cmd_iff w i).2 ⟨hi, hrsv, ?_, ?_⟩⟩
    · rw [wellFormed_iff, hop, ha8, hbit]
      exact fun h3 => hb h3 (Nat.le_of_lt_succ (Nat.lt_of_not_le h8))
    · rw [takesData_eq_false_iff, hop]
      exact hd (Nat.pos_of_ne_zero h0)

/-- Decoding an encoded command gives it back. -/
theorem decode_encode {i : Instr} (h : i.wellFormed = true) : decode (encode i) = .cmd i := by
  obtain ⟨hop, hrsv, ha8, hd32⟩ := encode_fields i
  rw [decode_eq_cmd_iff, hop, ha8, hd32]
  exact ⟨instrOfOpcode_operands i, hrsv, h, dataOperand_of_takesData_eq_false⟩

/-- A word that decodes is the encoding of its command, which is well-formed. -/
theorem encode_of_decode {w : CmdWord} {i : Instr} (h : decode w = .cmd i) : i.wellFormed = true ∧ encode i = w := by
  obtain ⟨hi, hrsv, hwf, hd⟩ := (decode_eq_cmd_iff w i).1 h
  obtain ⟨hop, ha8, hdata⟩ := operands_of_instrOfOpcode hi
  have hd32 : i.dataOperand = CmdField.d32 w := by
    cases ht : i.takesData <;> simp [hdata, ht, hd]
  refine ⟨hwf, ?_⟩
  rw [encode, hop, ha8, hd32, ← hrsv, append_fields]

/-- Settles O1: the decoder's checks, of the fields of the encoded word. -/
theorem decodeOfEncodeIsIdentity : Obligations.DecodeOfEncodeIsIdentity := fun _ => decode_encode

/-- Settles O2: the reserved fields by R85's list, the rest by decoding and encoding undoing each other. -/
theorem everyWordIsOneCommandOrIllegal : Obligations.EveryWordIsOneCommandOrIllegal := by
  refine fun w => ⟨fun i hi => ?_, ?_⟩
  · exact ((not_illegalBits_iff w).1 ((exists_decode_eq_cmd_iff w).1 ⟨i, hi⟩)).2
  · cases hd : decode w with
    | illegal why =>
      refine .inl ⟨⟨why, rfl⟩, ?_⟩
      rintro ⟨i, hwf, rfl⟩
      simp [decode_encode hwf] at hd
    | cmd i =>
      obtain ⟨hwf, henc⟩ := encode_of_decode hd
      refine .inr ⟨by simp, i, ⟨hwf, henc, rfl⟩, ?_⟩
      rintro j hj rfl
      simpa [decode_encode hj] using hd

/-- Settles O3: a word is illegal where it is no command, and the commands are the words R85 leaves. -/
theorem decodeRefusesExactlyTheIllegalWords : Obligations.DecodeRefusesExactlyTheIllegalWords :=
  ⟨fun w => by rw [exists_decode_eq_illegal_iff, exists_decode_eq_cmd_iff, not_not], .inl rfl⟩

/-- Settles O4: the legal words are encodings, and each of the others fails the check it is listed for. -/
theorem specWordsDecodeAsListed : Obligations.SpecWordsDecodeAsListed :=
  ⟨decode_encode (i := .crcSeed 0xFF) rfl, decode_encode (i := .crcUpdate 0x5A) rfl,
    decode_encode (i := .readReg 0x7F) rfl, decode_encode (i := .readInt 0x06) rfl,
    decode_encode (i := .readU32 0x06) rfl, decode_encode (i := .writeReg 0x7F 0xFFFFFFFF) rfl,
    decode_encode (i := .writeChecked 0x10 0x00011F10) rfl, by decide, by decide, by decide, by decide⟩

end Sys2Proof
end

section
/-! The frames on the wire (30_encoding.md R87 to R93): the length that byte 2 of a frame tells, and the
payload of a reply. -/

namespace Sys2Proof.Machine

/-- A register number leaves bit 7 of its byte clear. -/
theorem getLsbD_setWidth_reg7 (a : Reg7) : (a.setWidth 8).getLsbD 7 = false := by
  simp

/-- With the write-bit at bit 7, that bit of byte 2 tells the length (R90). -/
theorem frameLengthFromByte2_of_writeBit {c : Config} (hc : c.writeBit = 0x80) (b : Byte) :
    frameLengthFromByte2 c b = if b.getLsbD 7 then 8 else 4 := by
  have hmask : (0x80 : Byte) = BitVec.twoPow 8 7 := rfl
  rw [frameLengthFromByte2, hc, hmask, BitVec.and_twoPow]
  cases b.getLsbD 7 <;> rfl

/-- The number a big-endian word is (00_scope.md R8). -/
theorem be32_toNat (b0 b1 b2 b3 : Byte) :
    (be32 b0 b1 b2 b3).toNat = b0.toNat * 2 ^ 24 + b1.toNat * 2 ^ 16 + b2.toNat * 2 ^ 8 + b3.toNat := by
  simp only [be32, toNat_append_eq_add]
  omega

end Sys2Proof.Machine

namespace Sys2Proof

open Sys2Proof.Machine

/-- Settles O20: both frames are a header with its check byte. -/
theorem framesHaveTheSpecsBytes : Obligations.FramesHaveTheSpecsBytes := fun _ a _ =>
  ⟨rfl, getLsbD_setWidth_reg7 a, rfl⟩

/-- Settles O21: bit 7 of byte 2 is clear in a Read frame and the write-bit in a Write frame. -/
theorem byteTwoTellsTheFrameLength : Obligations.ByteTwoTellsTheFrameLength := by
  intro c a d hc
  have hread : ((readFrame c a).getD 2 0).getLsbD 7 = false := getLsbD_setWidth_reg7 a
  have hwrite : ((writeFrame c a d).getD 2 0).getLsbD 7 = true := by
    change (a.setWidth 8 ||| c.writeBit).getLsbD 7 = true
    simp [hc]
  refine ⟨readFrame_length c a, ?_, writeFrame_length c a d, ?_⟩
  · rw [frameLengthFromByte2_of_writeBit hc, hread]; rfl
  · rw [frameLengthFromByte2_of_writeBit hc, hwrite]; rfl

/-- Settles O22: the four bytes read from the list, and the number of a big-endian word. -/
theorem replyValueIsBytesSevenToTenBigEndian : Obligations.ReplyValueIsBytesSevenToTenBigEndian := by
  intro r b7 b8 b9 b10 h7 h8 h9 h10
  simp only [replyValue, List.getD_eq_getElem?_getD, h7, h8, h9, h10, Option.getD_some]
  exact be32_toNat b7 b8 b9 b10

end Sys2Proof
end

section
/-! The assembler (30_encoding.md R96, R97): which operands it takes, and the bytes and words it makes of them. -/

namespace Sys2Proof.Machine

/-! ### Words (R96's listings) -/

/-- The number of an encoded command that takes no data. -/
theorem encode_toNat_of_takesData_eq_false {i : Instr} (h : i.takesData = false) :
    (encode i).toNat = i.opcode.toNat * 2 ^ 44 + i.byteOperand.toNat * 2 ^ 32 := by
  simp [encode_toNat, dataOperand_of_takesData_eq_false h]

@[simp] theorem encode_crcSeed_toNat (a8 : Byte) :
    (encode (.crcSeed a8)).toNat = 1 * 2 ^ 44 + a8.toNat * 2 ^ 32 :=
  encode_toNat_of_takesData_eq_false (i := .crcSeed a8) rfl
@[simp] theorem encode_crcUpdate_toNat (a8 : Byte) :
    (encode (.crcUpdate a8)).toNat = 2 * 2 ^ 44 + a8.toNat * 2 ^ 32 :=
  encode_toNat_of_takesData_eq_false (i := .crcUpdate a8) rfl
@[simp] theorem encode_readReg_toNat (a8 : Byte) :
    (encode (.readReg a8)).toNat = 3 * 2 ^ 44 + a8.toNat * 2 ^ 32 :=
  encode_toNat_of_takesData_eq_false (i := .readReg a8) rfl
@[simp] theorem encode_readInt_toNat (a8 : Byte) :
    (encode (.readInt a8)).toNat = 4 * 2 ^ 44 + a8.toNat * 2 ^ 32 :=
  encode_toNat_of_takesData_eq_false (i := .readInt a8) rfl
@[simp] theorem encode_readU32_toNat (a8 : Byte) :
    (encode (.readU32 a8)).toNat = 5 * 2 ^ 44 + a8.toNat * 2 ^ 32 :=
  encode_toNat_of_takesData_eq_false (i := .readU32 a8) rfl
@[simp] theorem encode_writeReg_toNat (a8 : Byte) (d32 : Word32) :
    (encode (.writeReg a8 d32)).toNat = 6 * 2 ^ 44 + a8.toNat * 2 ^ 32 + d32.toNat :=
  encode_toNat (.writeReg a8 d32)
@[simp] theorem encode_writeChecked_toNat (a8 : Byte) (d32 : Word32) :
    (encode (.writeChecked a8 d32)).toNat = 7 * 2 ^ 44 + a8.toNat * 2 ^ 32 + d32.toNat :=
  encode_toNat (.writeChecked a8 d32)

/-! ### Operands -/

theorem imm8Operand_of_range {n : Int} (h : 0 ≤ n ∧ n ≤ 255) : imm8Operand n = some (BitVec.ofInt 8 n) := if_pos h

theorem imm8Operand_of_not_range {n : Int} (h : ¬ (0 ≤ n ∧ n ≤ 255)) : imm8Operand n = none := if_neg h

theorem reg7Operand_of_range {n : Int} (h : 0 ≤ n ∧ n ≤ 127) : reg7Operand n = some (BitVec.ofInt 8 n) := if_pos h

theorem reg7Operand_of_not_range {n : Int} (h : ¬ (0 ≤ n ∧ n ≤ 127)) : reg7Operand n = none := if_neg h

theorem imm32Operand_of_range {n : Int} (h : -(2 ^ 31) ≤ n ∧ n ≤ 2 ^ 32 - 1) :
    imm32Operand n = some (BitVec.ofInt 32 n) := if_pos h

theorem imm32Operand_of_not_range {n : Int} (h : ¬ (-(2 ^ 31) ≤ n ∧ n ≤ 2 ^ 32 - 1)) : imm32Operand n = none := if_neg h

/-- The byte of a number in range is that number. -/
theorem ofInt_byte_toNat {n : Int} (h : 0 ≤ n ∧ n ≤ 255) : (BitVec.ofInt 8 n).toNat = n.toNat := by
  rw [BitVec.toNat_ofInt]
  omega

/-- So is that of a register number in range. -/
theorem ofInt_reg_toNat {n : Int} (h : 0 ≤ n ∧ n ≤ 127) : (BitVec.ofInt 8 n).toNat = n.toNat :=
  ofInt_byte_toNat ⟨h.1, h.2.trans (by decide)⟩

/-- A list of bytes is taken where every one is in range. -/
theorem mapM_imm8Operand_of_range : ∀ {ns : List Int}, (∀ b ∈ ns, 0 ≤ b ∧ b ≤ 255) →
    ns.mapM imm8Operand = some (ns.map (BitVec.ofInt 8))
  | [], _ => rfl
  | n :: ns, h => by
    obtain ⟨hn, hns⟩ := List.forall_mem_cons.1 h
    simp [imm8Operand_of_range hn, mapM_imm8Operand_of_range hns]

/-- A list of bytes is refused where one is out of range. -/
theorem mapM_imm8Operand_of_not_range : ∀ {ns : List Int}, (¬ ∀ b ∈ ns, 0 ≤ b ∧ b ≤ 255) → ns.mapM imm8Operand = none
  | [], h => absurd (by simp) h
  | n :: ns, h => by
    by_cases hn : 0 ≤ n ∧ n ≤ 255
    · have hns : ¬ ∀ b ∈ ns, 0 ≤ b ∧ b ≤ 255 := fun hns => h (List.forall_mem_cons.2 ⟨hn, hns⟩)
      simp [imm8Operand_of_range hn, mapM_imm8Operand_of_not_range hns]
    · simp [imm8Operand_of_not_range hn]

end Sys2Proof.Machine

namespace Sys2Proof

open Sys2Proof.Machine

/-- Settles O5: the operands in range and out of it, line by line, and the number of an encoded command. -/
theorem assemblerFollowsTheListing : Obligations.AssemblerFollowsTheListing := by
  intro c n r d ns words
  refine ⟨fun hn => ?_, fun hn => ?_, fun hr => ?_, fun ⟨hr0, hr1, hd⟩ => ?_, fun hr => ?_, fun h => ?_, ?_, fun h => ?_,
    fun h => ?_⟩
  · simp [words, assembleLine, imm8Operand_of_range hn, ofInt_byte_toNat hn]
  · simp [assembleLine, imm8Operand_of_not_range hn]
  · simp [words, assembleLine, reg7Operand_of_range hr, ofInt_reg_toNat hr]
  · have hr : 0 ≤ r ∧ r ≤ 127 := ⟨hr0, hr1⟩
    simp [words, assembleLine, reg7Operand_of_range hr, imm32Operand_of_range hd, ofInt_reg_toNat hr, BitVec.toNat_ofInt]
  · simp [assembleLine, reg7Operand_of_not_range hr]
  · by_cases hr : 0 ≤ r ∧ r ≤ 127
    · have hd : ¬ (-(2 ^ 31) ≤ d ∧ d ≤ 2 ^ 32 - 1) := fun hd => h ⟨hr.1, hr.2, hd⟩
      simp [assembleLine, reg7Operand_of_range hr, imm32Operand_of_not_range hd]
    · simp [assembleLine, reg7Operand_of_not_range hr]
  · have hwide : (c.ifcntAddr.setWidth 8).toNat = c.ifcntAddr.toNat := BitVec.toNat_setWidth_of_le (by decide)
    simp only [words, assembleLine, expandReadIfcnt, Option.map_some, List.map_cons, List.map_nil, encode_readU32_toNat,
      hwide]
  · obtain ⟨hn, hns⟩ := List.forall_mem_cons.1 h
    simpa [words, assembleLine, imm8Operand_of_range hn, mapM_imm8Operand_of_range hns, expandCrc8, crcUpdates,
      ofInt_byte_toNat hn] using fun b (hb : b ∈ ns) => ofInt_byte_toNat (hns b hb)
  · by_cases hn : 0 ≤ n ∧ n ≤ 255
    · have hns : ¬ ∀ b ∈ ns, 0 ≤ b ∧ b ≤ 255 := fun hns => h (List.forall_mem_cons.2 ⟨hn, hns⟩)
      simp [assembleLine, imm8Operand_of_range hn, mapM_imm8Operand_of_not_range hns]
    · simp [assembleLine, imm8Operand_of_not_range hn]

end Sys2Proof
end

section
/-! The record of a captured reply (10_state.md R34, 60_exceptions.md R233): the CRC check of a reply, what `Settle` owes the
records in a state, and that a step captures a reply exactly where `Captures` says so. -/

namespace Sys2Proof.Machine

variable {s t : State}

/-! ### The CRC check of a reply (30_encoding.md R94) -/

theorem replyCrcReceived_eq {r : List Byte} {received : Byte} (h : r[11]? = some received) :
    replyCrcReceived r = received := by
  simp [replyCrcReceived, h]

theorem replyCrcOk_iff {c : Config} {r : List Byte} {received : Byte} (h : r[11]? = some received) :
    replyCrcOk c r = true ↔ replyCrcComputed c r = received := by
  rw [replyCrcOk, replyCrcReceived_eq h, beq_iff_eq]

/-- A failed check leaves one record (R233). -/
theorem diagRecords_eq {c : Config} {r : List Byte} {received : Byte} (a : Reg7) (h : r[11]? = some received) :
    diagRecords c a r =
      if replyCrcComputed c r = received then [] else [⟨a, replyCrcComputed c r, received⟩] := by
  simp only [diagRecords, replyCrcOk_iff h, replyCrcReceived_eq h]

/-- The bytes the check covers, for the two values of `P_REPLY_CRC_FROM` (R94). -/
theorem replyCrcComputed_eq {c : Config} (hc : c.replyCrcFrom = 0 ∨ c.replyCrcFrom = 4)
    (b0 b1 b2 b3 b4 b5 b6 b7 b8 b9 b10 b11 : Byte) :
    replyCrcComputed c [b0, b1, b2, b3, b4, b5, b6, b7, b8, b9, b10, b11] = crc8 c.crcReflectIn
      (if c.replyCrcFrom = 0 then [b0, b1, b2, b3, b4, b5, b6, b7, b8, b9, b10] else [b4, b5, b6, b7, b8, b9, b10]) 0 := by
  obtain h | h := hc <;> rw [replyCrcComputed, h] <;> rfl

/-- The pulse of a step is the first record it appends (10_state.md R35). -/
theorem diagCrcMismatch_of_append {l : List DiagEntry} (h : t.diag = s.diag ++ l) : diagCrcMismatch s t = l.head? := by
  rw [diagCrcMismatch, h, List.drop_left]

/-! ### What `Settle` owes the records -/

/-- `Settle` captures the reply in the buffer: at once in CAPTURE, or when PAUSE is over, or when the Read frame is sent and
there is no pause (41_transaction.md R148). -/
abbrev CaptureDue (s : State) : Prop :=
  s.rx = .full ∧ (s.phase = .capture ∨ (s.phase = .pause ∧ s.cfg.tPause ≤ s.timer) ∨
    (s.phase = .tx ∧ s.kind = .read ∧ s.txIdx = s.txFrame.length ∧ s.cfg.tPause = 0))

/-- The `Diag` records and `crc_acc` that `Settle` will have left. -/
def owedRecord (s : State) : List DiagEntry × Bool :=
  if CaptureDue s then (s.diag ++ diagRecords s.cfg s.curAddr s.rxBuf, accumulateCrc s.cfg s.crcAcc s.rxBuf)
  else (s.diag, s.crcAcc)

theorem owedRecord_of_due (h : CaptureDue s) :
    owedRecord s = (s.diag ++ diagRecords s.cfg s.curAddr s.rxBuf, accumulateCrc s.cfg s.crcAcc s.rxBuf) := if_pos h

theorem owedRecord_of_not_due (h : ¬ CaptureDue s) : owedRecord s = (s.diag, s.crcAcc) := if_neg h

/-- Where nothing is due, no capture is. -/
theorem not_captureDue_of_quiescent (h : settleOnce s = none) : ¬ CaptureDue s := by
  obtain ⟨htx, hpause, hcapture, -⟩ := settleOnce_eq_none_iff.1 h
  rintro ⟨hrx, hp | ⟨hp, ht⟩ | ⟨hp, -, hi, -⟩⟩
  · exact (hcapture hp).1 hrx
  · exact absurd ht (Nat.not_le.2 (hpause hp))
  · exact (htx hp).1 hi

theorem owedRecord_of_rx_ne_full (h : s.rx ≠ .full) : owedRecord s = (s.diag, s.crcAcc) :=
  owedRecord_of_not_due fun hdue => h hdue.1

/-- A sub-transaction that ends leaves the RX unit without a reply, so it owes nothing. -/
theorem owedRecord_subDone (ok : Bool) (v : Word32) (s : State) : owedRecord (subDone ok v s) = (s.diag, s.crcAcc) := by
  have hrx : (subDone ok v s).rx ≠ .full := by
    obtain ⟨st, d, -, h⟩ | ⟨-, -, -, h⟩ | ⟨-, -, -, h⟩ := subDone_cases ok v s <;> simp [h, startRead]
  rw [owedRecord_of_rx_ne_full hrx, subDone_diag, subDone_crcAcc]

/-- A failed attempt owes nothing either. -/
theorem owedRecord_attemptFailed (s : State) : owedRecord (attemptFailed s) = (s.diag, s.crcAcc) := by
  obtain ⟨-, -, h⟩ | ⟨-, h⟩ := attemptFailed_cases s <;> rw [h]
  · exact owedRecord_of_rx_ne_full (by simp)
  · exact owedRecord_subDone false 0 (disarm s)

/-- A turn of `Settle`'s loop pays what is owed or goes on owing it. -/
theorem owedRecord_settleOnce (h : settleOnce s = some t) : owedRecord t = owedRecord s := by
  obtain ⟨hp, hi, rfl⟩ | ⟨hp, hi, -, rfl⟩ | ⟨hp, ht, rfl⟩ | ⟨hp, hrx, rfl⟩ | ⟨hp, hrx, -, rfl⟩ | ⟨hp, -, rfl⟩ :=
    settleOnce_cases h
  · unfold txDone
    split
    next hk => simp [owedRecord, CaptureDue, hp, hk, hi]
    next hk => rw [owedRecord_subDone, owedRecord_of_not_due (by simp [hp, hk])]
  · rw [owedRecord_attemptFailed, owedRecord_of_not_due (by simp [hp, hi])]
  · simp [owedRecord, CaptureDue, hp, ht]
  · rw [replyCaptured_eq, owedRecord_subDone, owedRecord_of_due ⟨hrx, .inl hp⟩]
    rfl
  · rw [owedRecord_attemptFailed, owedRecord_of_rx_ne_full hrx]
  · rw [owedRecord_of_rx_ne_full (s := startAttempt s) (by simp), owedRecord_of_not_due (by simp [hp])]
    rfl

/-- `Settle` pays what is owed. -/
theorem settle_record (hl : s.cfg.legal = true) : ((settle s).diag, (settle s).crcAcc) = owedRecord s := by
  rw [← owedRecord_of_not_due (not_captureDue_of_quiescent (settleOnce_settle hl))]
  exact settle_induct (P := fun u => owedRecord u = owedRecord s) (fun _ _ h hu => (owedRecord_settleOnce hu).trans h) rfl

/-! ### The event that makes a capture due -/

theorem Inv.not_captureDue (h : Inv s) : ¬ CaptureDue s := not_captureDue_of_quiescent h.settleOnce_eq_none

/-- A unit one byte short of a reply is collecting it. -/
theorem Inv.rx_eq_collect (h : Inv s) (hlen : s.rxBuf.length = 11) : s.rx = .collect := by
  have hrx := (LoopInv.of_inv h).rx_consistent
  cases hr : s.rx <;> simp_all [RxConsistent]

/-- The twelfth byte completes the reply. -/
theorem onRx_of_length_eq_eleven (h : Inv s) (hlen : s.rxBuf.length = 11) (b : Byte) :
    onRx b s = { s with rxBuf := s.rxBuf ++ [b], rx := .full } := by
  simp [onRx, h.rx_eq_collect hlen, hlen, replyLength]

/-- Only the twelfth byte completes it. -/
theorem length_of_onRx_rx_eq_full {b : Byte} (hopen : s.rx ≠ .full) (hfull : (onRx b s).rx = .full) :
    s.rxBuf.length = 11 := by
  obtain ho | ⟨-, -, ho⟩ | ⟨-, ho⟩ := onRx_cases b s <;> rw [ho] at hfull
  · exact absurd hfull hopen
  · cases hfull
  · by_contra hlen
    simp [replyLength, hlen] at hfull

/-- What the RX unit holds makes a capture due only in CAPTURE: PAUSE and TX wait for other events. -/
theorem Inv.captureDue_rx_iff (h : Inv s) (rx : RxMode) (buf : List Byte) :
    CaptureDue { s with rx := rx, rxBuf := buf } ↔ s.phase = .capture ∧ rx = .full := by
  constructor
  · rintro ⟨hrx, hp | ⟨hp, ht⟩ | ⟨hp, -, hi, -⟩⟩
    · exact ⟨hp, hrx⟩
    · exact absurd ht (Nat.not_le.2 (h.timer_pause (.inl hp)))
    · exact absurd hi (h.tx_unfinished hp).ne
  · exact fun ⟨hp, hrx⟩ => ⟨hrx, .inl hp⟩

/-- A received byte makes a capture due where it completes the reply in CAPTURE. -/
theorem captureDue_onRx_iff (h : Inv s) (b : Byte) :
    CaptureDue (onRx b s) ↔ s.phase = .capture ∧ s.rxBuf.length = 11 := by
  have hdue : CaptureDue (onRx b s) ↔ s.phase = .capture ∧ (onRx b s).rx = .full := by
    obtain ⟨rx, buf, ho⟩ := onRx_eq b s
    rw [ho]
    exact h.captureDue_rx_iff rx buf
  refine hdue.trans (and_congr_right fun hp => ⟨length_of_onRx_rx_eq_full (h.capture_open hp), fun hlen => ?_⟩)
  rw [onRx_of_length_eq_eleven h hlen]

/-- A tick makes a capture due where it ends PAUSE and the reply came before (92_eei_decisions.md D12). -/
theorem captureDue_onTick_iff (h : Inv s) :
    CaptureDue (onTick s) ↔ s.phase = .pause ∧ s.rx = .full ∧ s.timer + 1 = s.cfg.tPause := by
  unfold onTick
  split
  next hp => exact iff_of_false h.not_captureDue (by simp [hp])
  next =>
    constructor
    · rintro ⟨hrx, hp | ⟨hp, ht⟩ | ⟨hp, -, hi, -⟩⟩
      · exact absurd hrx (h.capture_open hp)
      · exact ⟨hp, hrx, Nat.le_antisymm (h.timer_pause (.inl hp)) ht⟩
      · exact absurd hi (h.tx_unfinished hp).ne
    · exact fun ⟨hp, hrx, ht⟩ => ⟨hrx, .inr (.inl ⟨hp, ht.ge⟩)⟩

/-- The acceptance of a byte makes a capture due where it ends the Read frame, the reply came before and there is no pause. -/
theorem captureDue_onTxAccept_iff (h : Inv s) : CaptureDue (onTxAccept s) ↔
    s.phase = .tx ∧ s.rx = .full ∧ s.cfg.tPause = 0 ∧ s.txIdx + 1 = s.txFrame.length := by
  obtain ⟨hnone, ho⟩ | ⟨b, hb, ho⟩ := onTxAccept_cases s <;> rw [ho]
  · refine iff_of_false h.not_captureDue ?_
    rintro ⟨hp, -, -, -⟩
    have hb := List.getElem?_eq_getElem (h.tx_unfinished hp)
    simp [(txByte_eq_some_iff _).2 ⟨hp, hb⟩] at hnone
  · obtain ⟨hp, -⟩ := (txByte_eq_some_iff b).1 hb
    constructor
    · rintro ⟨hrx, hc | ⟨hc, -⟩ | ⟨-, -, hi, ht⟩⟩
      · simp [hp] at hc
      · simp [hp] at hc
      · exact ⟨hp, hrx, ht, hi⟩
    · rintro ⟨-, hrx, ht, hi⟩
      obtain ⟨hk, -⟩ := h.armed_phase (by simp [hrx])
      exact ⟨hrx, .inr (.inr ⟨hp, hk, hi, ht⟩)⟩

/-- A word presented makes no capture due. -/
theorem not_captureDue_cmd (h : Inv s) (w : CmdWord) : ¬ CaptureDue (handle (.cmd w) s) := by
  by_cases hp : s.phase = .idle
  · rw [handle_cmd_idle w hp]
    exact not_captureDue_of_quiescent (settleOnce_of_turnsLeft_eq_zero
      (turnsLeft_acceptBody (s := openCommand s) h.legal s.cfg (decode w)))
  · rw [handle_cmd_busy w hp]
    exact h.not_captureDue

/-- The next event makes the block capture a reply exactly where its rule makes the capture due; the reply is then what the
buffer holds. -/
theorem captures_iff_captureDue (h : Inv s) {ev : Event} {rest : List Event} (he : s.events = ev :: rest)
    (hev : ev ≠ .reset) (r : List Byte) : Captures s r ↔
      CaptureDue (handle ev (withEvents rest s)) ∧ r = (handle ev (withEvents rest s)).rxBuf := by
  have h' := h.withEvents rest
  cases ev with
  | reset => exact absurd rfl hev
  | cmd w => simp [Captures, he, not_captureDue_cmd h' w]
  | rxByte b =>
    have hcap : Captures s r ↔ (s.phase = .capture ∧ s.rxBuf.length = 11) ∧ r = s.rxBuf ++ [b] := by
      simp [Captures, he, and_assoc]
    rw [hcap, handle, captureDue_onRx_iff h']
    refine and_congr_right fun ⟨_, hlen⟩ => ?_
    rw [onRx_of_length_eq_eleven h' hlen]
    rfl
  | txAccept =>
    have hcap : Captures s r ↔ (s.phase = .tx ∧ s.rx = .full ∧ s.cfg.tPause = 0 ∧ s.txIdx + 1 = s.txFrame.length) ∧
        r = s.rxBuf := by
      simp [Captures, he, and_assoc]
    have hbuf : (onTxAccept (withEvents rest s)).rxBuf = s.rxBuf := by
      obtain ⟨-, ho⟩ | ⟨b, -, ho⟩ := onTxAccept_cases (withEvents rest s) <;> rw [ho] <;> rfl
    rw [hcap, handle, captureDue_onTxAccept_iff h', hbuf]
    rfl
  | tick =>
    have hcap : Captures s r ↔ (s.phase = .pause ∧ s.rx = .full ∧ s.timer + 1 = s.cfg.tPause) ∧ r = s.rxBuf := by
      simp [Captures, he, and_assoc]
    have hbuf : (onTick (withEvents rest s)).rxBuf = s.rxBuf := by
      unfold onTick
      split <;> rfl
    rw [hcap, handle, captureDue_onTick_iff h', hbuf]
    rfl

/-! ### The records a step leaves -/

/-- A captured reply is whole (R158). -/
theorem Captures.length_eq {r : List Byte} (h : Inv s) (hr : Captures s r) : r.length = 12 := by
  obtain ⟨b, rest, -, hlen, -, rfl⟩ | ⟨rest, -, hrx, -, -, rfl⟩ | ⟨rest, -, hrx, -, -, -, rfl⟩ := hr
  · simp [hlen]
  · exact h.full_iff.1 hrx
  · exact h.full_iff.1 hrx

/-- No event's rule writes the records. -/
theorem handle_diag (ev : Event) (s : State) : (handle ev s).diag = s.diag := by
  cases ev with
  | reset => rfl
  | cmd w =>
    by_cases hp : s.phase = .idle
    · rw [handle_cmd_idle w hp]
      obtain ⟨st, -, h⟩ | ⟨op, st, a8, v, -, h⟩ | ⟨a8, v, h⟩ := acceptBody_cases s.cfg (decode w)
      · obtain ⟨v, k, h⟩ := h (openCommand s)
        rw [h]
        rfl
      · rw [h]
        rfl
      · rw [h]
        rfl
    · rw [handle_cmd_busy w hp]
  | rxByte b =>
    obtain ⟨rx, buf, h⟩ := onRx_eq b s
    rw [handle, h]
  | txAccept => obtain ⟨-, h⟩ | ⟨b, -, h⟩ := onTxAccept_cases s <;> rw [handle, h]
  | tick =>
    rw [handle, onTick]
    split <;> rfl

/-- The step that captures a reply appends its records and folds its check into `crc_acc` (R152). -/
theorem step_of_captures (h : Inv s) (hs : step s = .next t) {r : List Byte} (hr : Captures s r) :
    t.diag = s.diag ++ diagRecords s.cfg s.curAddr r ∧ t.crcAcc = accumulateCrc s.cfg s.crcAcc r := by
  obtain ⟨he, -⟩ | ⟨rest, he, -⟩ | ⟨ev, rest, hev, he, rfl⟩ := step_handle_cases hs
  · simp [Captures, he] at hr
  · simp [Captures, he] at hr
  · obtain ⟨hdue, rfl⟩ := (captures_iff_captureDue h he hev r).1 hr
    have hcmd (w : CmdWord) : ev ≠ .cmd w := fun hw => not_captureDue_cmd (h.withEvents rest) w (hw ▸ hdue)
    obtain ⟨rx, buf, wire, i, n, ho⟩ := handle_line_eq hcmd hev (withEvents rest s)
    rw [ho] at hdue ⊢
    exact Prod.mk.inj ((settle_record (by exact h.legal)).trans (owedRecord_of_due hdue))

/-- A step that captures none leaves the records. -/
theorem step_diag_of_no_capture (h : Inv s) (hs : step s = .next t) (hr : ∀ r, ¬ Captures s r) : t.diag = s.diag := by
  obtain ⟨-, rfl⟩ | ⟨rest, -, rfl⟩ | ⟨ev, rest, hev, he, rfl⟩ := step_handle_cases hs
  · rfl
  · rfl
  · have hdue : ¬ CaptureDue (handle ev (withEvents rest s)) := fun hdue =>
      hr _ ((captures_iff_captureDue h he hev _).2 ⟨hdue, rfl⟩)
    have hl : (handle ev (withEvents rest s)).cfg.legal = true :=
      ((LoopInv.of_inv (h.withEvents rest)).handle ev).legal
    have hrec := (settle_record hl).trans (owedRecord_of_not_due hdue)
    exact (Prod.mk.inj hrec).1.trans (handle_diag ev (withEvents rest s))

end Sys2Proof.Machine

namespace Sys2Proof

open Sys2Proof.Machine

/-- Settles O46: the check as `replyCrcComputed` against byte 11; a step that captures pays the record its event's rule makes
due, any other owes none. -/
theorem diagGrowsByFailedCrcChecks : Obligations.DiagGrowsByFailedCrcChecks := by
  refine ⟨fun c a b0 b1 b2 b3 b4 b5 b6 b7 b8 b9 b10 b11 hc => ?_, fun s t hinv hs => ⟨fun r received hr hb => ?_,
    fun r => Captures.length_eq hinv, fun hr => ?_⟩⟩
  · rw [← replyCrcComputed_eq hc b0 b1 b2 b3 b4 b5 b6 b7 b8 b9 b10 b11]
    exact ⟨replyCrcOk_iff rfl, diagRecords_eq a rfl⟩
  · have hcrc : crc8 s.cfg.crcReflectIn ((r.take 11).drop s.cfg.replyCrcFrom) 0 = replyCrcComputed s.cfg r := rfl
    obtain ⟨hdiag, hacc⟩ := step_of_captures hinv hs hr
    have hpulse := diagCrcMismatch_of_append hdiag
    rw [diagRecords_eq s.curAddr hb] at hdiag hpulse
    rw [hcrc]
    refine ⟨fun hok => ?_, fun hbad => ?_⟩
    · have hholds : replyCrcOk s.cfg r = true := (replyCrcOk_iff hb).2 hok
      rw [if_pos hok] at hdiag hpulse
      exact ⟨hdiag.trans (List.append_nil _), hpulse, by rw [hacc, accumulateCrc, hholds, Bool.and_true]⟩
    · have hfails : replyCrcOk s.cfg r = false := Bool.eq_false_of_not_eq_true ((replyCrcOk_iff hb).not.2 hbad)
      rw [if_neg hbad] at hdiag hpulse
      exact ⟨hdiag, hpulse, by rw [hacc, accumulateCrc, hfails, Bool.and_false]⟩
  · have hdiag := step_diag_of_no_capture hinv hs hr
    exact ⟨hdiag, diagCrcMismatch_of_append (l := []) (by rw [hdiag, List.append_nil])⟩

end Sys2Proof
end

section
/-! The CRC-8 generator (40_crc.md R120 to R127): a byte step as an exclusive or and eight shifts, the composition of CRCs,
messages that carry their CRC, and what flipping bits of a message does to it. -/

namespace Sys2Proof.Machine

/-! ### The bit step (R120) -/

/-- Bit 0 of the register after a bit step is the bit that was fed back: the polynomial has bit 0 set. -/
theorem crcBit_getLsbD_zero (c : Byte) (bit : Bool) : (crcBit c bit).getLsbD 0 = (c.getLsbD 7 != bit) := by
  unfold crcBit
  split
  next h => rw [h, BitVec.getLsbD_xor]; simp [Config.poly]
  next h => rw [Bool.eq_false_of_not_eq_true h]; simp

/-- A shift of a byte loses only its top bit. -/
theorem eq_of_shiftLeft_one_eq {c c' : Byte} (htop : c.getLsbD 7 = c'.getLsbD 7) (h : c <<< 1 = c' <<< 1) : c = c' := by
  apply BitVec.eq_of_getElem_eq
  intro i hi
  obtain rfl | hlow : i = 7 ∨ i + 1 < 8 := by omega
  · exact htop
  · have hbit := congrArg (fun x : Byte => x.getLsbD (i + 1)) h
    simpa [hlow] using hbit

/-- A bit step loses nothing of the register. -/
theorem crcBit_injective (bit : Bool) : Function.Injective (crcBit · bit) := by
  intro c c' h
  change crcBit c bit = crcBit c' bit at h
  have htop : c.getLsbD 7 = c'.getLsbD 7 := by
    have hbit := congrArg (fun x : Byte => x.getLsbD 0) h
    simpa only [crcBit_getLsbD_zero, Bool.bne_left_inj, Bool.bne_right_inj] using hbit
  refine eq_of_shiftLeft_one_eq htop ?_
  unfold crcBit at h
  rw [htop] at h
  split at h
  · exact (BitVec.xor_left_inj _).1 h
  · exact h

/-- An input bit equal to the one shifted out adds nothing. -/
theorem crcBit_shiftLeft_getLsbD (b : Byte) {k : Nat} (hk : k ≤ 7) :
    crcBit (b <<< k) (b.getLsbD (7 - k)) = b <<< (k + 1) := by
  have hout : (b <<< k).getLsbD 7 = b.getLsbD (7 - k) := by
    simp [Nat.not_lt.2 hk, BitVec.getLsbD_eq_getElem (show 7 - k < 8 by omega)]
  rw [crcBit, hout, bne_self_eq_false, if_neg Bool.false_ne_true, BitVec.shiftLeft_add]

/-! ### The byte step (R120) -/

/-- A byte equal to the register leaves it 0, with MSB-first input. -/
theorem crcByte_self (b : Byte) : crcByte false b b = 0 := by
  have step {k : Nat} (hk : k ≤ 7) := crcBit_shiftLeft_getLsbD b hk
  calc crcByte false b b
      = (inputBits false b).foldl crcBit (b <<< 0) := by rw [BitVec.shiftLeft_zero]; rfl
    _ = b <<< 8 := by
        simp only [inputBits, Bool.false_eq_true, if_false, List.foldl_cons, List.foldl_nil]
        rw [step (k := 0) (by decide), step (k := 1) (by decide), step (k := 2) (by decide), step (k := 3) (by decide),
          step (k := 4) (by decide), step (k := 5) (by decide), step (k := 6) (by decide), step (k := 7) (by decide)]
    _ = 0 := BitVec.shiftLeft_eq_zero le_rfl

/-- R120's identity: a byte step is an exclusive or and eight steps with no input, with MSB-first input. -/
theorem crcByte_eq_iterate (c b : Byte) : crcByte false c b = (crcBit · false)^[8] (c ^^^ b) :=
  calc crcByte false c b
      = crcByte false ((c ^^^ b) ^^^ b) (0 ^^^ b) := by simp
    _ = crcByte false (c ^^^ b) 0 := by rw [crcByte_xor, crcByte_self]; exact BitVec.xor_zero
    _ = (crcBit · false)^[8] (c ^^^ b) := rfl

/-- Two byte steps agree only on the same sum of register and input. -/
theorem crcByte_eq_iff {c c' b b' : Byte} : crcByte false c b = crcByte false c' b' ↔ c ^^^ b = c' ^^^ b' := by
  rw [crcByte_eq_iterate, crcByte_eq_iterate]
  exact ((crcBit_injective false).iterate 8).eq_iff

/-- The bits of a byte in the opposite order. -/
theorem inputBits_true_eq {b b' : Byte} (h : ∀ i, i < 8 → b'.getLsbD i = b.getLsbD (7 - i)) :
    inputBits true b = inputBits false b' := by
  simp only [inputBits, Bool.false_eq_true, if_true, if_false]
  rw [h 7 (by decide), h 6 (by decide), h 5 (by decide), h 4 (by decide), h 3 (by decide), h 2 (by decide),
    h 1 (by decide), h 0 (by decide)]

/-! ### The CRC of a message (R121, R125 to R127) -/

@[simp] theorem crc8_nil (reflectIn : Bool) (c : Byte) : crc8 reflectIn [] c = c := rfl

@[simp] theorem crc8_cons (reflectIn : Bool) (b : Byte) (bs : List Byte) (c : Byte) :
    crc8 reflectIn (b :: bs) c = crc8 reflectIn bs (crcByte reflectIn c b) := rfl

theorem crc8_append (reflectIn : Bool) (as bs : List Byte) (c : Byte) :
    crc8 reflectIn (as ++ bs) c = crc8 reflectIn bs (crc8 reflectIn as c) := List.foldl_append

/-- Different seeds give different CRCs. -/
theorem crc8_injective (bs : List Byte) : Function.Injective (crc8 false bs) := by
  induction bs with
  | nil => exact Function.injective_id
  | cons b bs ih => exact fun c c' h => (BitVec.xor_left_inj _).1 (crcByte_eq_iff.1 (ih h))

/-- The CRC of an exclusive or, bit by bit, of two messages of one length. -/
theorem crc8_xor (reflectIn : Bool) : ∀ (m e : List Byte) (c c' : Byte), e.length = m.length →
    crc8 reflectIn (List.zipWith (· ^^^ ·) m e) (c ^^^ c') = crc8 reflectIn m c ^^^ crc8 reflectIn e c'
  | [], [], _, _, _ => rfl
  | b :: m, b' :: e, c, c', h => by
    simp only [List.zipWith_cons_cons, crc8_cons, crcByte_xor]
    exact crc8_xor reflectIn m e _ _ (by simpa using h)
  | [], _ :: _, _, _, h => by simp at h
  | _ :: _, [], _, _, h => by simp at h

/-- A message with another byte in one place has another CRC. -/
theorem crc8_set_ne {m : List Byte} {k : Nat} {b b' : Byte} (seed : Byte) (hk : m[k]? = some b) (hb : b' ≠ b) :
    crc8 false (m.set k b') seed ≠ crc8 false m seed := by
  obtain ⟨hlt, rfl⟩ := List.getElem?_eq_some_iff.1 hk
  have hm : crc8 false m seed = crc8 false (m.take k ++ m[k] :: m.drop (k + 1)) seed := by
    rw [← List.drop_eq_getElem_cons hlt, List.take_append_drop]
  rw [hm, List.set_eq_take_append_cons_drop, if_pos hlt, crc8_append, crc8_append, crc8_cons, crc8_cons]
  exact fun h => hb ((BitVec.xor_right_inj _).1 (crcByte_eq_iff.1 (crc8_injective _ h)))

/-- Flipping a bit of a byte changes the byte. -/
theorem xor_one_shiftLeft_ne (b : Byte) {j : Nat} (hj : j < 8) : b ^^^ (1#8 <<< j) ≠ b := by
  intro h
  have hbit := congrArg (fun x : Byte => x.getLsbD j) h
  simp [hj] at hbit

/-- R126: a message followed by its CRC has CRC 0, and its last byte is the CRC of those before. -/
theorem crc8_append_crc8 (bs : List Byte) (seed : Byte) : crc8 false (bs ++ [crc8 false bs seed]) seed = 0 := by
  rw [crc8_append, crc8_cons, crcByte_self, crc8_nil]

theorem getLast?_append_crc8 (bs : List Byte) (seed : Byte) :
    (bs ++ [crc8 false bs seed]).getLast? = some (crc8 false (bs ++ [crc8 false bs seed]).dropLast seed) := by
  rw [List.getLast?_concat, List.dropLast_concat]

/-- Every frame of the block is a header with its check byte (30_encoding.md R91, R92). -/
theorem exists_header_of_frame {c : Config} {a : Reg7} {d : Word32} {f : List Byte} (hc : c.crcReflectIn = false)
    (hf : f = readFrame c a ∨ f = writeFrame c a d) : ∃ header, f = header ++ [crc8 false header 0] := by
  obtain rfl | rfl := hf
  · exact ⟨_, by rw [readFrame, sealFrame_eq, hc]⟩
  · exact ⟨_, by rw [writeFrame, sealFrame_eq, hc]⟩

end Sys2Proof.Machine

namespace Sys2Proof

open Sys2Proof.Machine

/-- Settles O14: by linearity the input byte may be added to the register first; the reflected order lists the same bits. -/
theorem crcByteIsXorThenEightShifts : Obligations.CrcByteIsXorThenEightShifts := by
  constructor
  · intro c b
    have hstep : (crcBit · false) = fun x : Byte => if x.getLsbD 7 then (x <<< 1) ^^^ 0x07 else x <<< 1 := by
      funext x
      rw [crcBit, Bool.bne_false, Config.poly]
    rw [crcByte_eq_iterate, hstep]
  · intro c b b' h
    rw [crcByte, crcByte, inputBits_true_eq h]

/-- Settles O16: the last byte step of a sealed message adds the register to itself. -/
theorem sealedMessagesHaveCrcZero : Obligations.SealedMessagesHaveCrcZero := by
  have hsealed (bs f : List Byte) (hf : f = bs ++ [crc8 false bs 0]) :
      crc8 false f 0 = 0 ∧ f.getLast? = some (crc8 false f.dropLast 0) := by
    subst hf
    exact ⟨crc8_append_crc8 bs 0, getLast?_append_crc8 bs 0⟩
  refine ⟨hsealed, fun c a d f hc hf => ?_⟩
  obtain ⟨header, hheader⟩ := exists_header_of_frame hc hf
  exact hsealed header f hheader

/-- Settles O17: a byte step loses nothing, of its input or of the register, so the change stays. -/
theorem crcDetectsEverySingleBitFlip : Obligations.CrcDetectsEverySingleBitFlip := fun _ seed b _ _ hk hj =>
  crc8_set_ne seed hk (xor_one_shiftLeft_ne b hj)

/-- Settles O18: the CRC of an exclusive or of messages, with the second seed 0. -/
theorem crcChangeIsTheErrorPatternsCrc : Obligations.CrcChangeIsTheErrorPatternsCrc := by
  intro reflectIn m e seed hlen
  have hseed : seed ^^^ 0 = seed := BitVec.xor_zero
  rw [← crc8_xor reflectIn m e seed 0 hlen, hseed]

end Sys2Proof
end

section
/-! The commands at accept: what none of them changes (41_transaction.md R144, R155), what CRC_SEED and CRC_UPDATE answer
(40_crc.md R123, R124), and the run of a CRC8 line (30_encoding.md R97). -/

namespace Sys2Proof.Machine

variable {s t : State}

/-! ### A command presented -/

theorem exec_eq (i : Instr) (s : State) : exec i s = .next (accept (acceptBody s.cfg (.cmd i)) s) := by
  cases i <;> rfl

/-- A command presented is held and changes nothing, or is accepted (R143). -/
theorem exec_cases {i : Instr} (h : exec i s = .next t) :
    (s.phase ≠ .idle ∧ t = s) ∨ (s.phase = .idle ∧ t = acceptBody s.cfg (.cmd i) (openCommand s)) := by
  rw [exec_eq] at h
  cases h
  by_cases hp : s.phase = .idle
  · exact .inr ⟨hp, accept_idle _ hp⟩
  · exact .inl ⟨hp, accept_busy _ hp⟩

/-- What no accepted word changes: the configuration, the records, the events to come and `before`. -/
theorem acceptBody_frame (c : Config) (d : Decoded) (s : State) :
    (acceptBody c d s).cfg = s.cfg ∧ (acceptBody c d s).wire = s.wire ∧ (acceptBody c d s).diag = s.diag ∧
    (acceptBody c d s).events = s.events ∧ (acceptBody c d s).before = s.before := by
  obtain ⟨st, -, h⟩ | ⟨op, st, a8, v, -, h⟩ | ⟨a8, v, h⟩ := acceptBody_cases c d
  · obtain ⟨v, k, h⟩ := h s
    rw [h]
    exact ⟨rfl, rfl, rfl, rfl, rfl⟩
  · rw [h]
    exact ⟨rfl, rfl, rfl, rfl, rfl⟩
  · rw [h]
    exact ⟨rfl, rfl, rfl, rfl, rfl⟩

/-! ### The answer of a CRC command (R123, R124) -/

/-- The state with `c` in the CRC register and as the result of a completed command. -/
def crcAnswer (c : Byte) (s : State) : State :=
  { s with
    crc := c, crcAcc := true
    respValid := true, respStatus := 0, respData := c.setWidth 32, respCrcOk := true }

/-- In IDLE there is nothing left for a completion to clear (10_state.md R41). -/
theorem Inv.finish_openCommand (h : Inv s) (hp : s.phase = .idle) (c : Byte) :
    finish statusOk (zext32 c) { openCommand s with crc := c } = crcAnswer c s := by
  obtain ⟨hrx, hframe, hidx, htimer⟩ := h.idle_clear hp
  have hbuf := h.buf_empty (.inl hrx)
  simp [finish, Machine.crcAnswer, openCommand, statusOk, zext32, hp, hrx, hframe, hidx, htimer, hbuf]

theorem Inv.exec_crcSeed (h : Inv s) (hp : s.phase = .idle) (b : Byte) : exec (.crcSeed b) s = .next (crcAnswer b s) := by
  rw [exec_eq, accept_idle _ hp, ← h.finish_openCommand hp]
  rfl

theorem Inv.exec_crcUpdate (h : Inv s) (hp : s.phase = .idle) (b : Byte) :
    exec (.crcUpdate b) s = .next (crcAnswer (crcByte s.cfg.crcReflectIn s.crc b) s) := by
  rw [exec_eq, accept_idle _ hp, ← h.finish_openCommand hp]
  rfl

theorem Inv.crcAnswer (h : Inv s) (hp : s.phase = .idle) (c : Byte) : Inv (crcAnswer c s) :=
  { h with
    response_closed := fun hbusy => absurd hp hbusy
    status_produced := show (0 : BitVec 2) ≠ statusReserved by decide }

/-! ### The run of CRC commands (R97) -/

/-- A command's word presented in IDLE, where its command completes at once: `Settle` has nothing to do after it. -/
theorem stepEvent_cmd_encode {i : Instr} (hwf : i.wellFormed = true) (h : exec i s = .next t) (ht : t.phase = .idle) :
    stepEvent (.cmd (encode i)) s = .next t := by
  rw [stepEvent, onCmd, decode_encode hwf]
  simp only [h, thenSettle, settle_of_quiescent (settleOnce_idle ht)]

/-- The words of commands, presented in order. -/
def presented (is : List Instr) : List Event := is.map fun i => .cmd (encode i)

/-- A run of CRC_UPDATE answers the CRC of the bytes from the register's value (R125). -/
theorem Inv.after_crcUpdates (h : Inv s) (hp : s.phase = .idle) (bs : List Byte) (c : Byte) :
    after (presented (crcUpdates bs)) (Machine.crcAnswer c s) =
      .next (Machine.withEvents [] (Machine.crcAnswer (crc8 s.cfg.crcReflectIn bs c) s)) := by
  induction bs generalizing c with
  | nil => rfl
  | cons b bs ih =>
    have hexec : exec (.crcUpdate b) (Machine.crcAnswer c s) =
        .next (Machine.crcAnswer (crcByte s.cfg.crcReflectIn c b) s) := (h.crcAnswer hp c).exec_crcUpdate hp b
    calc after (presented (crcUpdates (b :: bs))) (Machine.crcAnswer c s)
        = after (presented (crcUpdates bs)) (Machine.crcAnswer (crcByte s.cfg.crcReflectIn c b) s) :=
          after_cons_of_stepEvent _ h.legal (stepEvent_cmd_encode rfl hexec hp)
      _ = _ := ih _

/-- A CRC8 line answers the CRC of its bytes from its seed (R97, R125). -/
theorem Inv.after_expandCrc8 (h : Inv s) (hp : s.phase = .idle) (init : Byte) (bs : List Byte) :
    after (presented (expandCrc8 init bs)) s =
      .next (Machine.withEvents [] (Machine.crcAnswer (crc8 s.cfg.crcReflectIn bs init) s)) :=
  (after_cons_of_stepEvent _ h.legal (stepEvent_cmd_encode rfl (h.exec_crcSeed hp init) hp)).trans
    (h.after_crcUpdates hp bs init)

end Sys2Proof.Machine

namespace Sys2Proof

open Sys2Proof.Machine

/-- Settles O15: the fold over a concatenation, and a run in which each command answers the CRC so far. -/
theorem crc8SequenceComputesCrc8 : Obligations.Crc8SequenceComputesCrc8 :=
  ⟨crc8_append, fun init bs _ h hp =>
    ⟨_, h.after_expandCrc8 hp init bs, rfl, rfl, rfl, rfl, rfl, hp, rfl, rfl⟩⟩

/-- Settles O11: a held command changes nothing, an accepted one what its body writes. -/
theorem commandsLeaveTheRestUnchanged : Obligations.CommandsLeaveTheRestUnchanged := by
  intro i s t h
  obtain ⟨-, rfl⟩ | ⟨hp, rfl⟩ := exec_cases h
  · exact ⟨⟨rfl, rfl, rfl, rfl, rfl⟩,
      fun _ => ⟨rfl, rfl, rfl, rfl, rfl, rfl, rfl, rfl, fun _ => ⟨rfl, rfl, rfl, rfl, rfl, rfl⟩⟩,
      fun _ => ⟨rfl, rfl, rfl, rfl⟩, fun _ => ⟨rfl, rfl, rfl⟩⟩
  · refine ⟨acceptBody_frame s.cfg (.cmd i) (openCommand s), ?_, ?_, ?_⟩
    · have hclear (hinv : Inv s) : .idle = s.phase ∧ .off = s.rx ∧ [] = s.rxBuf ∧ [] = s.txFrame ∧ 0 = s.txIdx ∧
          0 = s.timer := by
        obtain ⟨hrx, hframe, hidx, htimer⟩ := hinv.idle_clear hp
        exact ⟨hp.symm, hrx.symm, (hinv.buf_empty (.inl hrx)).symm, hframe.symm, hidx.symm, htimer.symm⟩
      rintro ⟨a, rfl | rfl⟩
      · exact ⟨rfl, rfl, rfl, rfl, rfl, rfl, rfl, rfl, hclear⟩
      · exact ⟨rfl, rfl, rfl, rfl, rfl, rfl, rfl, rfl, hclear⟩
    · rintro ⟨a, d, rfl | rfl | rfl | rfl | rfl⟩ <;> exact ⟨rfl, rfl, rfl, rfl⟩
    · rintro ⟨a, d, rfl⟩
      exact ⟨rfl, rfl, rfl⟩

/-- Settles O12: the meaning in IDLE, and the word by the encoder's law. -/
theorem crcSeedLoadsTheRegister : Obligations.CrcSeedLoadsTheRegister :=
  ⟨fun b _ h hp => h.exec_crcSeed hp b, fun b => ⟨encode_crcSeed_toNat b, decode_encode rfl⟩, by decide⟩

/-- Settles O13: the meaning in IDLE. -/
theorem crcUpdateFeedsOneByte : Obligations.CrcUpdateFeedsOneByte := fun b _ h hp => h.exec_crcUpdate hp b

end Sys2Proof
end

section
/-! What the block does with an event, as a function of the state (41_transaction.md R142, R143, R148): the event's rule and then
`Settle`, over one event and over lists of them; and the events of one clock (R141). -/

namespace Sys2Proof.Machine

variable {s t : State}

/-! ### More turns of `Settle` -/

theorem settleFor_of_quiescent (h : settleOnce s = none) : ∀ n, settleFor n s = s
  | 0 => rfl
  | n + 1 => by simp only [settleFor, h]

theorem settleFor_add (m n : Nat) (s : State) : settleFor (m + n) s = settleFor n (settleFor m s) := by
  induction m generalizing s with
  | zero => rw [Nat.zero_add]; rfl
  | succ m ih =>
    rw [Nat.succ_add]
    cases h : settleOnce s with
    | none => simp only [settleFor, h, settleFor_of_quiescent h]
    | some t => simp only [settleFor, h, ih]

/-- In a legal configuration more turns than three change nothing (R148). -/
theorem settleFor_eq_settle (hl : s.cfg.legal = true) {n : Nat} (hn : 3 ≤ n) : settleFor n s = settle s := by
  obtain ⟨k, rfl⟩ := Nat.exists_eq_add_of_le hn
  rw [settleFor_add]
  exact settleFor_of_quiescent (settleOnce_settle hl) k

/-- `Settle` may take its first turn before it starts. -/
theorem settle_of_settleOnce (hl : s.cfg.legal = true) (h : settleOnce s = some t) : settle s = settle t :=
  calc settle s = settleFor 4 s := (settleFor_eq_settle hl (by decide)).symm
    _ = settle t := by rw [settleFor, h]; rfl

/-! ### One event -/

/-- The state an event leads to: its rule and then `Settle`. -/
def react (ev : Event) (s : State) : State := settle (handle ev s)

/-- After Reset, `Settle` has nothing to do (R142). -/
theorem stepEvent_eq_react (ev : Event) (s : State) : stepEvent ev s = .next (react ev s) := by
  by_cases hev : ev = .reset
  · subst hev
    exact congrArg Host.Outcome.next (settle_of_quiescent (settleOnce_idle (s := resetState s) rfl)).symm
  · exact stepEvent_eq_settle hev s

theorem step_eq_react {ev : Event} {rest : List Event} (hl : s.cfg.legal = true) (he : s.events = ev :: rest) :
    step s = .next (react ev (withEvents rest s)) :=
  (step_of_event hl he).trans (stepEvent_eq_react ev (withEvents rest s))

theorem react_cfg (ev : Event) (s : State) : (react ev s).cfg = s.cfg := stepEvent_cfg (stepEvent_eq_react ev s)

theorem inv_react (h : Inv s) (ev : Event) : Inv (react ev s) := ((LoopInv.of_inv h).handle ev).inv_settle

/-! ### Any number of events -/

/-- The state that events lead to, one after another. -/
def deliver (evs : List Event) (s : State) : State := evs.foldl (fun u ev => react ev u) s

@[simp] theorem deliver_nil (s : State) : deliver [] s = s := rfl

@[simp] theorem deliver_cons (ev : Event) (evs : List Event) (s : State) :
    deliver (ev :: evs) s = deliver evs (react ev s) := rfl

@[simp] theorem deliver_append (as bs : List Event) (s : State) : deliver (as ++ bs) s = deliver bs (deliver as s) :=
  List.foldl_append

theorem after_eq_deliver (hl : s.cfg.legal = true) (evs : List Event) :
    after evs s = .next (withEvents [] (deliver evs s)) := by
  induction evs generalizing s with
  | nil => rfl
  | cons ev evs ih =>
    rw [after_cons_of_stepEvent evs hl (stepEvent_eq_react ev s), ih (by rw [react_cfg]; exact hl), deliver_cons]

theorem inv_deliver (h : Inv s) (evs : List Event) : Inv (deliver evs s) := by
  induction evs generalizing s with
  | nil => exact h
  | cons ev evs ih => exact ih (inv_react h ev)

/-! ### A command presented -/

/-- A command that a state of the invariant takes leaves nothing for `Settle` (R144). -/
theorem Inv.settle_of_exec (h : Inv s) {i : Instr} (hx : exec i s = .next t) : settle t = t := by
  obtain ⟨-, rfl⟩ | ⟨-, rfl⟩ := exec_cases hx
  · exact settle_of_quiescent h.settleOnce_eq_none
  · exact settle_of_turnsLeft_eq_zero (turnsLeft_acceptBody (s := openCommand s) h.legal s.cfg (.cmd i))

/-- The word of a command presented is the command's meaning and then `Settle` (R143, R144). -/
theorem stepEvent_cmd {w : CmdWord} {i : Instr} (hd : decode w = .cmd i) (hx : exec i s = .next t) :
    stepEvent (.cmd w) s = .next (settle t) := by
  simp only [stepEvent, onCmd, hd, hx, thenSettle]

/-- A busy block holds any command presented (R143). -/
theorem exec_busy (hp : s.phase ≠ .idle) (i : Instr) : exec i s = .next s := by
  rw [exec_eq, accept_busy _ hp]

theorem decode_of_decodeTableWord {nbits w : Nat} {i : Instr} (h : decodeTableWord nbits w = some i) :
    decode (tableWord nbits w) = .cmd i := by
  unfold decodeTableWord at h
  split at h
  · cases h
  next j hj => cases h; exact hj

/-! ### The events of one clock (R141) -/

theorem flagEvent_sublist (flag : Bool) (ev : Event) : (if flag then [ev] else []).Sublist [ev] := by
  cases flag <;> simp

theorem portEvent_sublist {α : Type} (f : α → Event) (port : Option α) (d : α) :
    (port.map f).toList.Sublist [f (port.getD d)] := by
  cases port <;> simp

theorem mem_flagEvent_iff {flag : Bool} {ev e : Event} : e ∈ (if flag then [ev] else []) ↔ e = ev ∧ flag = true := by
  cases flag <;> simp

theorem mem_portEvent_iff {α : Type} {f : α → Event} {port : Option α} {e : Event} :
    e ∈ (port.map f).toList ↔ ∃ a, e = f a ∧ port = some a := by
  cases port <;> simp

end Sys2Proof.Machine

namespace Sys2Proof

open Sys2Proof.Machine

/-- Settles O8: `turnsLeft` bounds the turns by three, and where nothing is due more turns do nothing. -/
theorem settleReachesQuiescence : Obligations.SettleReachesQuiescence :=
  fun _ hl => ⟨settleOnce_settle hl, fun _ => settleFor_eq_settle hl⟩

/-- Settles O9: `accept` holds the word, and in a state of the invariant nothing is due. -/
theorem busyBlockHoldsEveryCommand : Obligations.BusyBlockHoldsEveryCommand := by
  refine fun s hp => ⟨exec_busy hp, fun h w rest he => ?_⟩
  rw [step_eq_react h.legal he]
  exact congrArg Host.Outcome.next ((h.withEvents rest).settle_handle_cmd_busy w hp)

/-- Settles O6: `onCmd` is `exec` of the decoded command; a command accepted leaves nothing due, one held changes nothing. -/
theorem stepRunsTheDecodedCommand : Obligations.StepRunsTheDecodedCommand := by
  refine ⟨fun s t w rest i hl he hd hx => ?_, fun s t nbits w i hl hd hx => ?_⟩
  · have hstep : step s = .next (settle t) := (step_of_event hl he).trans (stepEvent_cmd hd hx)
    refine ⟨hstep, fun h => ?_⟩
    rw [hstep, (h.withEvents rest).settle_of_exec hx]
  · exact (step_of_event (s := s.withFetchWord nbits w) hl rfl).trans (stepEvent_cmd (decode_of_decodeTableWord hd) hx)

/-- Settles O54: each port gives at most its own event, and they stand in R141's order. -/
theorem clockEventsAreSerialisedInOrder : Obligations.ClockEventsAreSerialisedInOrder := by
  refine ⟨fun b w => rfl, fun c => ⟨c.rxByte.getD 0, c.cmd.getD 0, ?_⟩, fun c ev => ?_⟩
  · exact ((((flagEvent_sublist c.reset .reset).append (portEvent_sublist .rxByte c.rxByte 0)).append
      (flagEvent_sublist c.txAccept .txAccept)).append (flagEvent_sublist c.tick .tick)).append
      (portEvent_sublist .cmd c.cmd 0)
  · simp only [serialise, List.mem_append, mem_flagEvent_iff, mem_portEvent_iff, or_assoc]

end Sys2Proof
end

section
/-! Time in a sub-transaction (41_transaction.md R147 to R155, R159): the transition that is due in each phase, the end of a
sub-transaction that failed, and what a tick and an accepted byte do. -/

namespace Sys2Proof.Machine

variable {s : State}

/-! ### The transition that is due (R148) -/

theorem settleOnce_of_frame_sent (hp : s.phase = .tx) (hi : s.txIdx = s.txFrame.length) :
    settleOnce s = some (txDone s) := by
  simp only [settleOnce, hp, if_pos hi]

theorem settleOnce_of_short_write (hp : s.phase = .tx) (hi : s.txIdx ≠ s.txFrame.length) (ht : s.cfg.tTx ≤ s.timer) :
    settleOnce s = some (attemptFailed s) := by
  simp only [settleOnce, hp, if_neg hi, if_pos ht]

theorem settleOnce_of_pause_over (hp : s.phase = .pause) (ht : s.cfg.tPause ≤ s.timer) :
    settleOnce s = some { s with phase := .capture, timer := 0 } := by
  simp only [settleOnce, hp, if_pos ht]

theorem settleOnce_of_reply (hp : s.phase = .capture) (hrx : s.rx = .full) : settleOnce s = some (replyCaptured s) := by
  simp only [settleOnce, hp, if_pos hrx]

theorem settleOnce_of_no_frame (hp : s.phase = .capture) (hrx : s.rx ≠ .full) (ht : s.cfg.tCapture ≤ s.timer) :
    settleOnce s = some (attemptFailed s) := by
  simp only [settleOnce, hp, if_neg hrx, if_pos ht]

theorem settleOnce_of_backoff_over (hp : s.phase = .backoff) (ht : s.cfg.tPause ≤ s.timer) :
    settleOnce s = some (startAttempt s) := by
  simp only [settleOnce, hp, if_pos ht]

/-! ### The limit of the timer (R159) -/

/-- The limit of the timer in each phase. -/
def phaseLimit (c : Config) : Phase → Nat
  | .idle => 0
  | .tx => c.tTx
  | .pause => c.tPause
  | .capture => c.tCapture
  | .backoff => c.tPause

theorem Inv.timer_lt_phaseLimit (h : Inv s) (hp : s.phase ≠ .idle) : s.timer < phaseLimit s.cfg s.phase := by
  cases hph : s.phase with
  | idle => exact absurd hph hp
  | tx => exact h.timer_tx hph
  | pause => exact h.timer_pause (.inl hph)
  | capture => exact h.timer_capture hph
  | backoff => exact h.timer_pause (.inr hph)

/-- Below its phase's limit, with its frame unfinished or its reply not whole, the block waits (R148). -/
theorem settleOnce_eq_none_of_lt (hi : s.phase = .tx → s.txIdx ≠ s.txFrame.length) (hrx : s.phase = .capture → s.rx ≠ .full)
    (ht : s.timer < phaseLimit s.cfg s.phase) : settleOnce s = none :=
  settleOnce_eq_none_iff.2 ⟨fun hp => ⟨hi hp, by rwa [hp] at ht⟩, fun hp => by rwa [hp] at ht,
    fun hp => ⟨hrx hp, by rwa [hp] at ht⟩, fun hp => by rwa [hp] at ht⟩

theorem phaseLimit_le_max (c : Config) (p : Phase) : phaseLimit c p ≤ max (max c.tTx c.tPause) c.tCapture := by
  cases p <;> simp [phaseLimit]

/-! ### The end of a sub-transaction -/

/-- A failed sub-transaction ends every command: WRITE_CHECKED with its "false", the others with TransportTimeout (42_read.md
R180; 43_write.md R201, R203). -/
theorem subDone_false (v : Word32) (s : State) :
    subDone false v s = finish (if s.op = .writeChecked then statusOk else statusTransportTimeout) 0 s := by
  unfold subDone
  cases hop : s.op with
  | readReg => rfl
  | readInt => rfl
  | readU32 => rfl
  | writeReg => rfl
  | writeChecked => cases hst : s.stage <;> simp only [subDoneWriteChecked, hst] <;> rfl

/-- `Settle` has nothing to do after a sub-transaction ends. -/
theorem settle_subDone (hl : s.cfg.legal = true) (ok : Bool) (v : Word32) : settle (subDone ok v s) = subDone ok v s :=
  settle_of_turnsLeft_eq_zero (turnsLeft_subDone hl ok v)

/-! ### A failed attempt (R153, R154) -/

/-- The state of a read sub-transaction that waits for its next attempt. -/
def backOff (s : State) : State := { disarm s with attempt := s.attempt + 1, phase := .backoff, timer := 0 }

theorem attemptFailed_of_attempt_left (hk : s.kind = .read) (hn : s.attempt < s.limit) : attemptFailed s = backOff s :=
  if_pos ⟨hk, hn⟩

theorem attemptFailed_of_last (hn : ¬ (s.kind = .read ∧ s.attempt < s.limit)) :
    attemptFailed s = finish (if s.op = .writeChecked then statusOk else statusTransportTimeout) 0 s :=
  (if_neg hn).trans (subDone_false 0 (disarm s))

/-- How late an attempt fails makes no difference. -/
theorem attemptFailed_timer (n : Nat) (s : State) : attemptFailed { s with timer := n } = attemptFailed s := by
  by_cases hn : s.kind = .read ∧ s.attempt < s.limit
  · rw [attemptFailed_of_attempt_left hn.1 hn.2]
    exact attemptFailed_of_attempt_left (s := { s with timer := n }) hn.1 hn.2
  · rw [attemptFailed_of_last hn]
    exact attemptFailed_of_last (s := { s with timer := n }) hn

theorem settle_startAttempt (hl : s.cfg.legal = true) : settle (startAttempt s) = startAttempt s :=
  settle_of_turnsLeft_eq_zero (turnsLeft_startAttempt hl)

/-- With attempts left the block waits, or without a pause starts the next attempt at once. -/
theorem settle_attemptFailed_of_attempt_left (hl : s.cfg.legal = true) (hk : s.kind = .read) (hn : s.attempt < s.limit) :
    settle (attemptFailed s) = if s.cfg.tPause = 0 then startAttempt (backOff s) else backOff s := by
  rw [attemptFailed_of_attempt_left hk hn]
  split
  next hz =>
    rw [settle_of_settleOnce (s := backOff s) hl (settleOnce_of_backoff_over rfl (by exact hz.le))]
    exact settle_startAttempt (s := backOff s) hl
  next hz =>
    exact settle_of_quiescent (settleOnce_eq_none_of_lt (s := backOff s) (fun hp => by cases hp) (fun hp => by cases hp)
      (Nat.pos_of_ne_zero hz))

/-- After the last attempt, or a Write frame cut short, the command is over. -/
theorem settle_attemptFailed_of_last (hn : ¬ (s.kind = .read ∧ s.attempt < s.limit)) : settle (attemptFailed s) =
    finish (if s.op = .writeChecked then statusOk else statusTransportTimeout) 0 s := by
  rw [attemptFailed_of_last hn]
  exact settle_of_quiescent (settleOnce_idle rfl)

/-! ### A tick (R149) -/

theorem handle_tick (hp : s.phase ≠ .idle) : handle .tick s = { s with timer := s.timer + 1 } := if_neg hp

/-- Below its phase's limit the timer only counts. -/
theorem Inv.react_tick_of_lt (h : Inv s) (hp : s.phase ≠ .idle) (ht : s.timer + 1 < phaseLimit s.cfg s.phase) :
    react .tick s = { s with timer := s.timer + 1 } := by
  rw [react, handle_tick hp]
  exact settle_of_quiescent (settleOnce_eq_none_of_lt (s := { s with timer := s.timer + 1 })
    (fun hp => (h.tx_unfinished hp).ne) h.capture_open ht)

/-- The tick that reaches the limit of TX or CAPTURE fails the attempt (R153). -/
theorem Inv.react_tick_of_deadline (h : Inv s) (hp : s.phase = .tx ∨ s.phase = .capture)
    (ht : s.timer + 1 = phaseLimit s.cfg s.phase) : react .tick s = settle (attemptFailed s) := by
  have hbusy : s.phase ≠ .idle := by obtain hp | hp := hp <;> simp [hp]
  have hdue : settleOnce { s with timer := s.timer + 1 } = some (attemptFailed s) := by
    rw [← attemptFailed_timer (s.timer + 1) s]
    obtain hp | hp := hp <;> rw [hp] at ht
    · exact settleOnce_of_short_write (s := { s with timer := s.timer + 1 }) hp (h.tx_unfinished hp).ne ht.ge
    · exact settleOnce_of_no_frame (s := { s with timer := s.timer + 1 }) hp (h.capture_open hp) ht.ge
  rw [react, handle_tick hbusy]
  exact settle_of_settleOnce (by exact h.legal) hdue

/-- The tick that ends PAUSE without a whole reply opens CAPTURE (R151). -/
theorem Inv.react_tick_ends_pause (h : Inv s) (hp : s.phase = .pause) (hrx : s.rx ≠ .full)
    (ht : s.timer + 1 = s.cfg.tPause) : react .tick s = { s with phase := .capture, timer := 0 } := by
  obtain ⟨-, -, -, htCapture⟩ := Config.bounds_of_legal h.legal
  rw [react, handle_tick (by simp [hp]),
    settle_of_settleOnce (by exact h.legal) (settleOnce_of_pause_over (by exact hp) (by exact ht.ge))]
  exact settle_of_quiescent (settleOnce_eq_none_of_lt (s := { s with phase := .capture, timer := 0 })
    (fun hp => by cases hp) (fun _ => hrx) htCapture)

/-- The tick that ends BACKOFF starts the next attempt (R154). -/
theorem Inv.react_tick_ends_backoff (h : Inv s) (hp : s.phase = .backoff) (ht : s.timer + 1 = s.cfg.tPause) :
    react .tick s = startAttempt s := by
  rw [react, handle_tick (by simp [hp]),
    settle_of_settleOnce (by exact h.legal) (settleOnce_of_backoff_over (by exact hp) (by exact ht.ge))]
  exact settle_startAttempt (s := { s with timer := s.timer + 1 }) h.legal

/-! ### A byte accepted (R147) -/

/-- The state after the line took the byte `b`, before `Settle`. -/
def emit (b : Byte) (s : State) : State := { s with wire := s.wire ++ [b], txIdx := s.txIdx + 1 }

theorem handle_txAccept {b : Byte} (hp : s.phase = .tx) (hb : s.txFrame[s.txIdx]? = some b) :
    handle .txAccept s = emit b s := by
  simp only [handle, onTxAccept, (txByte_eq_some_iff b).2 ⟨hp, hb⟩, emit]

/-- A byte before the last only goes out. -/
theorem Inv.react_txAccept_of_lt (h : Inv s) {b : Byte} (hp : s.phase = .tx) (hb : s.txFrame[s.txIdx]? = some b)
    (hi : s.txIdx + 1 < s.txFrame.length) : react .txAccept s = emit b s := by
  rw [react, handle_txAccept hp hb]
  refine settle_of_quiescent (settleOnce_of_turnsLeft_eq_zero (turnsLeft_tx_open (s := emit b s) hp ?_ (h.timer_tx hp)))
  exact hi.ne

/-- The last byte ends the frame (R150). -/
theorem react_txAccept_last (hl : s.cfg.legal = true) {b : Byte} (hp : s.phase = .tx) (hb : s.txFrame[s.txIdx]? = some b)
    (hi : s.txIdx + 1 = s.txFrame.length) : react .txAccept s = settle (txDone (emit b s)) := by
  rw [react, handle_txAccept hp hb]
  exact settle_of_settleOnce (s := emit b s) hl (settleOnce_of_frame_sent (s := emit b s) hp hi)

/-! ### A Write frame (43_write.md R200, R203) -/

theorem Inv.txFrame_length_of_write (h : Inv s) (hp : s.phase ≠ .idle) (hk : s.kind = .write) : s.txFrame.length = 8 := by
  rw [h.frame_of_stage hp]
  simp only [currentFrame, hk, writeFrame_length]

/-- The only Write frame of WRITE_CHECKED is that of its stage WRITE (10_state.md R24). -/
theorem stage_eq_write {st : Stage} (h : stageKindOk .writeChecked st .write = true) : st = .write := by
  cases st <;> simp_all [stageKindOk]

theorem subDone_true_of_writeReg (hop : s.op = .writeReg) (v : Word32) : subDone true v s = finish statusOk 0 s := by
  simp only [subDone, hop, subDoneWriteReg, if_true]

theorem subDone_true_of_write (hop : s.op = .writeChecked) (hst : s.stage = .write) (v : Word32) :
    subDone true v s = startRead s.cfg.ifcntAddr s.cfg.chkTries { s with stage := .after } := by
  simp only [subDone, hop, subDoneWriteChecked, hst, if_true]

/-- The last byte of a Write frame ends its sub-transaction at once: there is no pause after it (R150). -/
theorem Inv.react_txAccept_last_of_write (h : Inv s) {b : Byte} (hp : s.phase = .tx) (hk : s.kind = .write)
    (hb : s.txFrame[s.txIdx]? = some b) (hi : s.txIdx + 1 = 8) : react .txAccept s = subDone true 0 (emit b s) := by
  have hlen := h.txFrame_length_of_write (by simp [hp]) hk
  have hdone : txDone (emit b s) = subDone true 0 (emit b s) := by simp only [txDone, emit, hk]
  rw [react_txAccept_last h.legal hp hb (hi.trans hlen.symm), hdone]
  exact settle_subDone (s := emit b s) h.legal true 0

/-- A tick that reaches the limit while a Write frame is sent ends the command: there is no other attempt (R153). -/
theorem Inv.react_tick_of_write_deadline (h : Inv s) (hp : s.phase = .tx) (hk : s.kind = .write)
    (ht : s.timer + 1 = s.cfg.tTx) : react .tick s =
      finish (if s.op = .writeChecked then statusOk else statusTransportTimeout) 0 s := by
  rw [h.react_tick_of_deadline (.inl hp) (by rw [hp]; exact ht)]
  exact settle_attemptFailed_of_last (by simp [hk])

end Sys2Proof.Machine

namespace Sys2Proof

open Sys2Proof.Machine

/-- Settles O49: the invariant holds after the step, and every limit is below the power of two that holds the largest. -/
theorem timerStaysBelowItsLimit : Obligations.TimerStaysBelowItsLimit := by
  intro s t hs hstep
  have h := inv_step hs hstep
  refine ⟨h.timer_tx, h.timer_pause, h.timer_capture, ?_⟩
  have hmax : t.timer ≤ max (max t.cfg.tTx t.cfg.tPause) t.cfg.tCapture := by
    by_cases hp : t.phase = .idle
    · obtain ⟨-, -, -, htimer⟩ := h.idle_clear hp
      omega
    · exact (h.timer_lt_phaseLimit hp).le.trans (phaseLimit_le_max t.cfg t.phase)
  exact (Nat.lt_succ_of_le hmax).trans_le (Nat.le_pow_clog (by decide) _)

/-- Settles O33: one lemma for each thing a tick can do in its phase. -/
theorem failedAttemptIsRetriedOrEnds : Obligations.FailedAttemptIsRetriedOrEnds := by
  intro s rest hs hk he failed started
  have h := hs.withEvents rest
  rw [step_eq_react hs.legal he]
  refine ⟨fun hdue => ?_, fun hp ht => ?_, fun hlt => ?_, fun hp hrx ht => ?_⟩
  · have hreact : react .tick (withEvents rest s) = settle (attemptFailed (withEvents rest s)) := by
      obtain ⟨hp, ht⟩ | ⟨hp, ht⟩ := hdue
      · exact h.react_tick_of_deadline (.inl hp) (by rw [withEvents_phase, hp]; exact ht)
      · exact h.react_tick_of_deadline (.inr hp) (by rw [withEvents_phase, hp]; exact ht)
    rw [hreact]
    refine ⟨fun hn => ?_, fun hn => ?_⟩
    · exact congrArg Host.Outcome.next
        (settle_attemptFailed_of_attempt_left (s := withEvents rest s) hs.legal hk hn)
    · exact congrArg Host.Outcome.next (settle_attemptFailed_of_last (s := withEvents rest s) fun hr => hn hr.2)
  · exact congrArg Host.Outcome.next (h.react_tick_ends_backoff hp ht)
  · have hcount : s.phase ≠ .idle ∧ s.timer + 1 < phaseLimit s.cfg s.phase := by
      obtain ⟨hp, ht⟩ | ⟨hp, ht⟩ | ⟨hp | hp, ht⟩ := hlt <;> rw [hp] <;> exact ⟨by decide, ht⟩
    exact congrArg Host.Outcome.next (h.react_tick_of_lt hcount.1 hcount.2)
  · exact congrArg Host.Outcome.next (h.react_tick_ends_pause hp hrx ht)

/-- Settles O38: a byte before the last is emitted, the last one ends the sub-transaction, and so does the tick at the limit. -/
theorem writeFrameIsSentOrTimesOut : Obligations.WriteFrameIsSentOrTimesOut := by
  intro s rest hs hp hk finished
  have h := hs.withEvents rest
  have hbusy : s.phase ≠ .idle := by simp [hp]
  have hstage (hop : s.op = .writeChecked) : s.stage = .write := stage_eq_write (hop ▸ hk ▸ hs.stage_of_op hbusy)
  have hlen := hs.txFrame_length_of_write hbusy hk
  refine ⟨?_, fun he => ?_⟩
  · intro b he hb sent
    rw [step_eq_react hs.legal he]
    have hlast (hi : s.txIdx + 1 = 8) := h.react_txAccept_last_of_write hp hk hb hi
    refine ⟨fun hi => ?_, fun hi hop => ?_, fun hi hop => ?_⟩
    · exact congrArg Host.Outcome.next (h.react_txAccept_of_lt hp hb (by simpa [hlen] using hi))
    · rw [hlast hi, subDone_true_of_writeReg (s := emit b (withEvents rest s)) hop]
      rfl
    · rw [hlast hi, subDone_true_of_write (s := emit b (withEvents rest s)) hop (hstage hop)]
      simp [sent, startRead, startAttempt, emit, hp]
  · rw [step_eq_react hs.legal he]
    have hdeadline (ht : s.timer + 1 = s.cfg.tTx) := h.react_tick_of_write_deadline hp hk ht
    refine ⟨fun ht => ?_, fun ht hop => ?_, fun ht hop => ?_⟩
    · exact congrArg Host.Outcome.next (h.react_tick_of_lt hbusy (by rw [withEvents_phase, hp]; exact ht))
    · rw [hdeadline ht, if_neg (by simp [hop])]
      rfl
    · rw [hdeadline ht, if_pos (by exact hop)]
      rfl

end Sys2Proof
end

section
/-! A captured reply (41_transaction.md R152, R157; 42_read.md R180; 43_write.md R203): how it ends its sub-transaction, and
that its CRC byte decides nothing but the CRC check's own records. -/

namespace Sys2Proof.Machine

variable {s t : State}

/-! ### Where a reply ends its sub-transaction -/

/-- `Verified` holds exactly where the counter moved (R204). -/
theorem verified_iff (before after : Byte) : verified before after = true ↔ before ≠ after := by
  have hbefore := before.isLt
  have hafter := after.isLt
  rw [verified, decide_eq_true_eq, ne_eq, ← BitVec.toNat_inj]
  omega

theorem zextBit_verified (before after : Byte) : zextBit (verified before after) = if before = after then 0 else 1 := by
  by_cases h : before = after
  · simp [zextBit, verified_iff, h]
  · simp [zextBit, verified_iff, h]

/-- WRITE_CHECKED reads in two stages (10_state.md R24). -/
theorem stage_of_checked_read {st : Stage} (h : stageKindOk .writeChecked st .read = true) : st = .before ∨ st = .after := by
  cases st <;> simp_all [stageKindOk]

/-- A reply completes a read command with its payload; it takes WRITE_CHECKED from its first counter read to the write, and after
the second it completes it with the comparison of byte 10. -/
theorem subDone_of_reply (hsk : stageKindOk s.op s.stage .read = true) (r : List Byte) :
    subDone true (replyValue r) s =
      if s.op ≠ .writeChecked then finish statusOk (replyValue r) s
      else if s.stage = .before then startWrite s.addr s.data { s with before := r.getD 10 0, stage := .write }
      else finish statusOk (if s.before = r.getD 10 0 then 0 else 1) s := by
  by_cases hop : s.op = .writeChecked
  · have hdone : subDone true (replyValue r) s = subDoneWriteChecked true (replyValue r) s := by simp only [subDone, hop]
    rw [hdone, if_neg (not_not.2 hop)]
    rw [hop] at hsk
    obtain hst | hst := stage_of_checked_read hsk
    · simp only [subDoneWriteChecked, hst, if_true, lowByte_replyValue]
    · simp only [subDoneWriteChecked, hst, if_true, lowByte_replyValue, zextBit_verified, reduceCtorEq, if_false]
  · rw [if_pos hop]
    unfold subDone
    cases hread : s.op with
    | readReg => rfl
    | readInt => rfl
    | readU32 => rfl
    | writeReg => simp [hread, stageKindOk] at hsk
    | writeChecked => exact absurd hread hop

/-- A relation that every end of a sub-transaction keeps is kept by `subDone`. -/
theorem subDone_rel {R : State → State → Prop} (hop : t.op = s.op) (hst : t.stage = s.stage) (hb : t.before = s.before)
    (hfinish : ∀ st d, R (finish st d s) (finish st d t)) (ok : Bool) (v : Word32)
    (hwrite : R (startWrite s.addr s.data { s with before := lowByte v, stage := .write })
      (startWrite t.addr t.data { t with before := lowByte v, stage := .write }))
    (hread : R (startRead s.cfg.ifcntAddr s.cfg.chkTries { s with stage := .after })
      (startRead t.cfg.ifcntAddr t.cfg.chkTries { t with stage := .after })) :
    R (subDone ok v s) (subDone ok v t) := by
  unfold subDone
  rw [hop]
  cases s.op with
  | readReg => cases ok <;> exact hfinish _ _
  | readInt => cases ok <;> exact hfinish _ _
  | readU32 => cases ok <;> exact hfinish _ _
  | writeReg => cases ok <;> exact hfinish _ _
  | writeChecked =>
    dsimp only
    unfold subDoneWriteChecked
    rw [hst]
    cases s.stage with
    | main => exact hfinish _ _
    | before => cases ok; exacts [hfinish _ _, hwrite]
    | write => cases ok; exacts [hfinish _ _, hread]
    | after =>
      rw [hb]
      cases ok <;> exact hfinish _ _

/-! ### Where `Settle` comes to it -/

/-- A sub-transaction ends the same from any phase and at any time. -/
theorem subDone_place (ok : Bool) (v : Word32) (p : Phase) (n : Nat) (s : State) :
    subDone ok v { s with phase := p, timer := n } = subDone ok v s :=
  subDone_rel (R := Eq) (s := { s with phase := p, timer := n }) rfl rfl rfl (fun _ _ => rfl) ok v rfl rfl

theorem replyCaptured_place (p : Phase) (n : Nat) (s : State) :
    replyCaptured { s with phase := p, timer := n } = replyCaptured s :=
  subDone_place true (replyValue s.rxBuf) p n (recordReply s)

theorem settle_of_reply (hl : s.cfg.legal = true) (hp : s.phase = .capture) (hrx : s.rx = .full) :
    settle s = replyCaptured s := by
  rw [settle_of_settleOnce hl (settleOnce_of_reply hp hrx)]
  exact settle_of_turnsLeft_eq_zero (turnsLeft_replyCaptured hl)

theorem settle_of_pause_over_with_reply (hl : s.cfg.legal = true) (hp : s.phase = .pause) (ht : s.cfg.tPause ≤ s.timer)
    (hrx : s.rx = .full) : settle s = replyCaptured s := by
  rw [settle_of_settleOnce hl (settleOnce_of_pause_over hp ht),
    settle_of_reply (s := { s with phase := .capture, timer := 0 }) hl rfl hrx]
  exact replyCaptured_place .capture 0 s

/-- `Settle` captures a reply whose capture is due, whatever transitions lead to it (92_eei_decisions.md D12). -/
theorem settle_of_captureDue (hl : s.cfg.legal = true) (hdue : CaptureDue s) : settle s = replyCaptured s := by
  obtain ⟨hrx, hp | ⟨hp, ht⟩ | ⟨hp, hk, hi, ht⟩⟩ := hdue
  · exact settle_of_reply hl hp hrx
  · exact settle_of_pause_over_with_reply hl hp ht hrx
  · have hdone : txDone s = { s with phase := .pause, timer := 0 } := by simp only [txDone, hk]
    rw [settle_of_settleOnce hl (settleOnce_of_frame_sent hp hi), hdone,
      settle_of_pause_over_with_reply (s := { s with phase := .pause, timer := 0 }) hl rfl ht.le hrx]
    exact replyCaptured_place .pause 0 s

/-- What `Settle` leaves of a state in which a capture is due (R152). -/
theorem settle_captureDue_eq (hl : s.cfg.legal = true) (hsk : stageKindOk s.op s.stage .read = true) (hdue : CaptureDue s) :
    settle s =
      if s.op ≠ .writeChecked then finish statusOk (replyValue s.rxBuf) (recordReply s)
      else if s.stage = .before then
        startWrite s.addr s.data { recordReply s with before := s.rxBuf.getD 10 0, stage := .write }
      else finish statusOk (if s.before = s.rxBuf.getD 10 0 then 0 else 1) (recordReply s) := by
  rw [settle_of_captureDue hl hdue, replyCaptured_eq]
  exact subDone_of_reply (s := recordReply s) hsk s.rxBuf

/-! ### A byte received (R145) -/

/-- A byte that does not complete a reply in CAPTURE does only what the RX unit does with it. -/
theorem Inv.react_rxByte (h : Inv s) {b : Byte} (hopen : s.phase = .capture → (onRx b s).rx ≠ .full) :
    react (.rxByte b) s = onRx b s := by
  obtain ⟨htx, hpause, hcapture, hbackoff⟩ := settleOnce_eq_none_iff.1 h.settleOnce_eq_none
  refine settle_of_quiescent ?_
  obtain ⟨rx, buf, ho⟩ := onRx_eq b s
  rw [handle]
  rw [ho] at hopen ⊢
  exact settleOnce_eq_none_iff.2 ⟨htx, hpause, fun hp => ⟨hopen hp, (hcapture hp).2⟩, hbackoff⟩

/-! ### What the CRC byte decides (R157) -/

/-- The state without the CRC check's records and without the CRC byte of a reply in the buffer. -/
def eraseCheck (s : State) : State :=
  { s with crcAcc := true, respCrcOk := true, diag := [], rxBuf := s.rxBuf.set 11 0 }

/-- Two states that differ at most in the CRC byte of a reply and in the records of its check. -/
def SameButCheck (s t : State) : Prop := eraseCheck s = eraseCheck t

/-- An operation that decides nothing by what `eraseCheck` erases. -/
abbrev IgnoresCheck (f : State → State) : Prop := ∀ s, eraseCheck (f (eraseCheck s)) = eraseCheck (f s)

theorem SameButCheck.map {f : State → State} (hf : IgnoresCheck f) (h : SameButCheck s t) : SameButCheck (f s) (f t) :=
  calc eraseCheck (f s) = eraseCheck (f (eraseCheck s)) := (hf s).symm
    _ = eraseCheck (f (eraseCheck t)) := congrArg (fun u => eraseCheck (f u)) h
    _ = eraseCheck (f t) := hf t

theorem sameButCheck_set (b : Byte) (s : State) : SameButCheck s { s with rxBuf := s.rxBuf.set 11 b } := by
  simp [SameButCheck, eraseCheck]

theorem eraseCheck_of_rxBuf_eq_nil (h : s.rxBuf = []) :
    eraseCheck s = { s with crcAcc := true, respCrcOk := true, diag := [] } := by
  simp [eraseCheck, h]

theorem subDone_ignoresCheck (ok : Bool) (v : Word32) : IgnoresCheck (subDone ok v) := fun s =>
  subDone_rel (R := SameButCheck) (s := eraseCheck s) (t := s) rfl rfl rfl (fun _ _ => rfl) ok v rfl rfl

theorem txDone_ignoresCheck : IgnoresCheck txDone := by
  intro s
  have hk : (eraseCheck s).kind = s.kind := rfl
  unfold txDone
  rw [hk]
  cases s.kind with
  | read => simp [eraseCheck]
  | write => exact subDone_ignoresCheck true 0 s

theorem attemptFailed_ignoresCheck : IgnoresCheck attemptFailed := by
  intro s
  by_cases hn : s.kind = .read ∧ s.attempt < s.limit
  · rw [attemptFailed_of_attempt_left hn.1 hn.2, attemptFailed_of_attempt_left (s := eraseCheck s) hn.1 hn.2]
    rfl
  · rw [attemptFailed_of_last hn, attemptFailed_of_last (s := eraseCheck s) hn]
    rfl

/-- The payload is bytes 7 to 10 (30_encoding.md R93). -/
theorem replyValue_set (r : List Byte) (b : Byte) : replyValue (r.set 11 b) = replyValue r := by
  simp [replyValue]

/-- The CRC check of a captured reply writes its records and no more. -/
theorem replyCaptured_ignoresCheck : IgnoresCheck replyCaptured := by
  intro s
  have hv : replyValue (eraseCheck s).rxBuf = replyValue s.rxBuf := replyValue_set s.rxBuf 0
  rw [replyCaptured_eq, replyCaptured_eq, hv]
  exact SameButCheck.map (s := recordReply (eraseCheck s)) (subDone_ignoresCheck true (replyValue s.rxBuf)) rfl

theorem SameButCheck.sameGuards (h : SameButCheck s t) : SameGuards s t where
  cfg := (congrArg State.cfg h).symm
  phase := (congrArg State.phase h).symm
  txFrame := (congrArg State.txFrame h).symm
  txIdx := (congrArg State.txIdx h).symm
  timer := (congrArg State.timer h).symm
  rx := (congrArg State.rx h).symm

theorem SameButCheck.settle (h : SameButCheck s t) : SameButCheck (settle s) (settle t) := by
  refine settle_rel (fun s t h => settleOnce_rel h.sameGuards (fun _ => h.map txDone_ignoresCheck)
    (fun _ => h.map attemptFailed_ignoresCheck) (fun _ => ?_) (fun _ => h.map replyCaptured_ignoresCheck)
    (fun _ => h.map (f := startAttempt) fun s => rfl)) h
  exact h.map (f := fun u => { u with phase := .capture, timer := 0 }) fun s => by simp [eraseCheck]

theorem set_append_set (r bs : List Byte) : (r.set 11 0 ++ bs).set 11 0 = (r ++ bs).set 11 0 := by
  by_cases hlen : 11 < r.length
  · simp [hlen]
  · rw [List.set_eq_of_length_le (Nat.le_of_not_lt hlen)]

theorem onRx_ignoresCheck (b : Byte) : IgnoresCheck (onRx b) := by
  intro s
  have hrx : (eraseCheck s).rx = s.rx := rfl
  unfold onRx
  rw [hrx]
  cases hr : s.rx with
  | off => simp [eraseCheck, hr]
  | hunt =>
    have hcfg : (eraseCheck s).cfg = s.cfg := rfl
    dsimp only
    rw [hcfg]
    split
    · rfl
    · simp [eraseCheck, hr]
  | collect => simpa [eraseCheck] using set_append_set s.rxBuf [b]
  | full => simp [eraseCheck, hr]

theorem onTxAccept_ignoresCheck : IgnoresCheck onTxAccept := by
  intro s
  have hb : txByte (eraseCheck s) = txByte s := rfl
  unfold onTxAccept
  rw [hb]
  split
  · simp [eraseCheck]
  · simp [eraseCheck]

theorem onTick_ignoresCheck : IgnoresCheck onTick := by
  intro s
  have hp : (eraseCheck s).phase = s.phase := rfl
  unfold onTick
  rw [hp]
  split
  · simp [eraseCheck]
  · simp [eraseCheck]

/-- In a busy block no event's rule decides by the CRC byte or its check; a word presented is held. -/
theorem SameButCheck.react (h : SameButCheck s t) (hp : s.phase ≠ .idle) (ev : Event) :
    SameButCheck (react ev s) (react ev t) := by
  refine SameButCheck.settle ?_
  cases ev with
  | reset => exact h.map (f := resetState) fun s => rfl
  | cmd w =>
    rw [handle_cmd_busy w hp, handle_cmd_busy w (by rwa [h.sameGuards.phase])]
    exact h
  | rxByte b => exact h.map (onRx_ignoresCheck b)
  | txAccept => exact h.map onTxAccept_ignoresCheck
  | tick => exact h.map onTick_ignoresCheck

theorem subDone_rxBuf (ok : Bool) (v : Word32) (s : State) : (subDone ok v s).rxBuf = [] := by
  obtain ⟨st, d, -, h⟩ | ⟨-, -, -, h⟩ | ⟨-, -, -, h⟩ := subDone_cases ok v s <;> rw [h] <;> rfl

/-- The twelfth byte of a reply, in CAPTURE, captures it at once (R152). -/
theorem Inv.react_rxByte_captures (h : Inv s) (hp : s.phase = .capture) (hlen : s.rxBuf.length = 11) (b : Byte) :
    react (.rxByte b) s = replyCaptured (onRx b s) := by
  have hl : (onRx b s).cfg.legal = true := ((LoopInv.of_inv h).onRx b).legal
  exact settle_of_captureDue hl ((captureDue_onRx_iff h b).2 ⟨hp, hlen⟩)

/-- With another CRC byte the reply is complete all the same. -/
theorem sameButCheck_onRx (h : Inv s) (hlen : s.rxBuf.length = 11) (b b' : Byte) :
    SameButCheck (onRx b s) (onRx b' s) := by
  rw [onRx_of_length_eq_eleven h hlen, onRx_of_length_eq_eleven h hlen]
  simp [SameButCheck, eraseCheck, hlen]

end Sys2Proof.Machine

namespace Sys2Proof

open Sys2Proof.Machine

/-- Settles O31: each event makes a capture due, and `Settle` ends the sub-transaction with it. -/
theorem capturedReplyEndsTheSubTransaction : Obligations.CapturedReplyEndsTheSubTransaction := by
  intro s rest hs hp hk captured finished ended
  have h := hs.withEvents rest
  have hsk : stageKindOk s.op s.stage .read = true := hk ▸ hs.stage_of_op hp
  refine ⟨fun b hp hlen he => ?_, fun hp hrx ht he => ?_, fun b hp hrx hi hb ht he => ?_, fun b hp he => ?_⟩ <;>
    rw [step_eq_react hs.legal he]
  · have hdue := (captureDue_onRx_iff h b).2 ⟨hp, hlen⟩
    rw [onRx_of_length_eq_eleven h hlen] at hdue
    rw [react, handle, onRx_of_length_eq_eleven h hlen]
    exact congrArg Host.Outcome.next (settle_captureDue_eq (by exact hs.legal) hsk hdue)
  · have hdue : CaptureDue (handle .tick (withEvents rest s)) := (captureDue_onTick_iff h).2 ⟨hp, hrx, ht⟩
    rw [handle_tick (s := withEvents rest s) (by simp [hp])] at hdue
    rw [react, handle_tick (s := withEvents rest s) (by simp [hp])]
    exact congrArg Host.Outcome.next (settle_captureDue_eq (by exact hs.legal) hsk hdue)
  · have hdue : CaptureDue (handle .txAccept (withEvents rest s)) := (captureDue_onTxAccept_iff h).2 ⟨hp, hrx, ht, hi⟩
    rw [handle_txAccept (s := withEvents rest s) hp hb] at hdue
    rw [react, handle_txAccept (s := withEvents rest s) hp hb,
      settle_captureDue_eq (s := emit b (withEvents rest s)) hs.legal hsk hdue]
    by_cases hop : s.op = .writeChecked
    · by_cases hst : s.stage = .before
      · have hended : ended s.rxBuf = _ := (if_neg (not_not.2 hop)).trans (if_pos hst)
        rw [hended, if_neg (not_not.2 (by exact hop)), if_pos (by exact hst)]
        rfl
      · have hended : ended s.rxBuf = _ := (if_neg (not_not.2 hop)).trans (if_neg hst)
        rw [hended, if_neg (not_not.2 (by exact hop)), if_neg (by exact hst)]
        rfl
    · have hended : ended s.rxBuf = _ := if_pos hop
      rw [hended, if_pos (by exact hop)]
      rfl
  · refine congrArg Host.Outcome.next (h.react_rxByte fun hc => ?_)
    obtain hp | hp := hp <;> simp [hp] at hc

/-- Settles O26: the step that captures is two steps side by side in which only the CRC check differs; so is any step of a busy
block with a whole reply in its buffer. -/
theorem replyCrcByteNeverChangesTheOutcome : Obligations.ReplyCrcByteNeverChangesTheOutcome := by
  refine ⟨fun s t b b' rest hs hp hlen he hstep => ?_, fun s t b' hs hrx hstep => ?_⟩
  · have h := hs.withEvents rest
    obtain ⟨hdiag, hacc⟩ := step_of_captures hs hstep (.inl ⟨b, rest, hp, hlen, he, rfl⟩)
    have hsame : SameButCheck (react (.rxByte b) (withEvents rest s)) (react (.rxByte b') (withEvents rest s)) :=
      (sameButCheck_onRx h hlen b b').settle
    have hbuf (b : Byte) : (react (.rxByte b) (withEvents rest s)).rxBuf = [] := by
      rw [h.react_rxByte_captures hp hlen]
      exact subDone_rxBuf _ _ _
    rw [step_eq_react hs.legal he] at hstep
    cases hstep
    refine ⟨hacc, hdiag, _, step_eq_react (s := { s with events := .rxByte b' :: rest }) hs.legal rfl, ?_⟩
    rw [← eraseCheck_of_rxBuf_eq_nil (hbuf b)]
    exact hsame.trans (eraseCheck_of_rxBuf_eq_nil (hbuf b'))
  · have hbusy : s.phase ≠ .idle := fun hp => by simp [(hs.idle_clear hp).1] at hrx
    obtain ⟨he, rfl⟩ | ⟨ev, rest, he, hev⟩ := step_next_cases hstep
    · exact ⟨_, step_of_events_nil hs.legal he, sameButCheck_set b' _⟩
    · rw [stepEvent_eq_react] at hev
      cases hev
      exact ⟨_, step_eq_react (s := { s with rxBuf := s.rxBuf.set 11 b' }) hs.legal he,
        (sameButCheck_set b' (withEvents rest s)).react hbusy ev⟩

end Sys2Proof
end

section
/-! The RX sync unit over many bytes (41_transaction.md R145, R146): after any bytes it holds the window that begins at the
earliest sync byte. -/

namespace Sys2Proof.Machine

variable {s : State}

/-! ### The window -/

/-- The bytes from the earliest sync byte on, at most the twelve of a reply. -/
def syncWindow (sync : Byte) (bs : List Byte) : List Byte := (bs.drop (bs.idxOf sync)).take 12

theorem syncWindow_of_notMem {sync : Byte} {bs : List Byte} (h : sync ∉ bs) : syncWindow sync bs = [] := by
  rw [syncWindow, List.idxOf_eq_length_iff.2 h, List.drop_length, List.take_nil]

theorem syncWindow_eq_nil_iff {sync : Byte} {bs : List Byte} : syncWindow sync bs = [] ↔ sync ∉ bs := by
  refine ⟨fun h hmem => ?_, syncWindow_of_notMem⟩
  have hlt := List.idxOf_lt_length_iff.2 hmem
  simp only [syncWindow, List.take_eq_nil_iff, List.drop_eq_nil_iff] at h
  omega

/-- The first sync byte opens the window. -/
theorem syncWindow_append_of_notMem {sync : Byte} {bs : List Byte} (h : sync ∉ bs) (b : Byte) :
    syncWindow sync (bs ++ [b]) = if b = sync then [b] else [] := by
  split
  next hb =>
    subst hb
    rw [syncWindow, List.idxOf_append_of_notMem h]
    simp
  next hb => exact syncWindow_of_notMem (by simp [h, Ne.symm hb])

/-- A window already open takes every byte until it holds twelve. -/
theorem syncWindow_append_of_mem {sync : Byte} {bs : List Byte} (h : sync ∈ bs) (b : Byte) :
    syncWindow sync (bs ++ [b]) = (syncWindow sync bs ++ [b]).take 12 := by
  have hlt := List.idxOf_lt_length_iff.2 h
  have hroom (n : Nat) : 12 - min 12 n = 12 - n := by omega
  rw [syncWindow, syncWindow, List.idxOf_append_of_mem h, List.drop_append_of_le_length hlt.le, List.take_append,
    List.take_append, List.take_take, List.length_take, Nat.min_self, hroom]

theorem idxOf_le_of_getElem? {sync : Byte} {bs : List Byte} {i : Nat} (h : bs[i]? = some sync) : bs.idxOf sync ≤ i := by
  have htake : sync ∈ bs.take (i + 1) := List.mem_of_getElem? (i := i) (by simpa using h)
  exact Nat.le_of_lt_succ ((List.mem_take_iff_idxOf_lt (List.mem_of_getElem? h)).1 htake)

theorem syncWindow_length (sync : Byte) (bs : List Byte) :
    (syncWindow sync bs).length = min 12 (bs.length - bs.idxOf sync) := by
  simp [syncWindow]

/-- A window is whole exactly where some sync byte has eleven bytes after it (R146). -/
theorem syncWindow_length_eq_iff (sync : Byte) (bs : List Byte) :
    (syncWindow sync bs).length = 12 ↔ ∃ i : Nat, bs[i]? = some sync ∧ i + 12 ≤ bs.length := by
  rw [syncWindow_length]
  constructor
  · intro h
    have hlt : bs.idxOf sync < bs.length := by omega
    exact ⟨_, List.getElem?_idxOf (List.idxOf_lt_length_iff.1 hlt), by omega⟩
  · rintro ⟨i, hi, hlen⟩
    have := idxOf_le_of_getElem? hi
    omega

/-! ### The unit -/

/-- The unit's state, from what its buffer holds. -/
def armedMode (buf : List Byte) : RxMode := if buf = [] then .hunt else if buf.length = 12 then .full else .collect

theorem armedMode_eq_full_iff {buf : List Byte} : armedMode buf = .full ↔ buf.length = 12 := by
  unfold armedMode
  split
  next h => simp [h]
  next h => split <;> simp_all

/-- The state whose armed unit has received the bytes `bs`. -/
def afterBytes (bs : List Byte) (s : State) : State :=
  { s with rx := armedMode (syncWindow s.cfg.sync bs), rxBuf := syncWindow s.cfg.sync bs }

/-- One more byte: the unit hunts for the first sync byte, collects after it, and when full takes no more (R145). -/
theorem onRx_afterBytes (b : Byte) (bs : List Byte) (s : State) :
    onRx b (afterBytes bs s) = afterBytes (bs ++ [b]) s := by
  by_cases hmem : s.cfg.sync ∈ bs
  · have hwindow := syncWindow_append_of_mem hmem b
    have hopen : syncWindow s.cfg.sync bs ≠ [] := fun h => syncWindow_eq_nil_iff.1 h hmem
    have hle : (syncWindow s.cfg.sync bs).length ≤ 12 := List.length_take_le _ _
    by_cases hfull : (syncWindow s.cfg.sync bs).length = 12
    · rw [← hfull, List.take_left] at hwindow
      simp [afterBytes, onRx, armedMode, hwindow, hopen, hfull]
    · rw [List.take_of_length_le (by simp; omega)] at hwindow
      simp [afterBytes, onRx, armedMode, hwindow, hopen, hfull, replyLength]
  · have hempty := syncWindow_of_notMem hmem
    have hwindow := syncWindow_append_of_notMem hmem b
    by_cases hb : b = s.cfg.sync
    · rw [if_pos hb] at hwindow
      subst hb
      simp [afterBytes, onRx, armedMode, hwindow, hempty]
    · rw [if_neg hb] at hwindow
      simp [afterBytes, onRx, armedMode, hwindow, hempty, hb]

@[simp] theorem rxReceive_nil (s : State) : rxReceive [] s = s := rfl

@[simp] theorem rxReceive_cons (b : Byte) (bs : List Byte) (s : State) :
    rxReceive (b :: bs) s = rxReceive bs (onRx b s) := rfl

theorem rxReceive_append (as bs : List Byte) (s : State) : rxReceive (as ++ bs) s = rxReceive bs (rxReceive as s) :=
  List.foldl_append

theorem rxReceive_afterBytes (bs as : List Byte) (s : State) :
    rxReceive bs (afterBytes as s) = afterBytes (as ++ bs) s := by
  induction bs generalizing as with
  | nil => rw [List.append_nil]; rfl
  | cons b bs ih => rw [rxReceive_cons, onRx_afterBytes, ih, List.append_assoc, List.singleton_append]

theorem afterBytes_nil (hrx : s.rx = .hunt) (hbuf : s.rxBuf = []) : afterBytes [] s = s := by
  have hnil : afterBytes [] s = { s with rx := .hunt, rxBuf := [] } := rfl
  rw [hnil, ← hrx, ← hbuf]

/-- An armed unit that has received nothing holds, after the bytes `bs`, their window. -/
theorem rxReceive_of_hunt (hrx : s.rx = .hunt) (hbuf : s.rxBuf = []) (bs : List Byte) :
    rxReceive bs s = afterBytes bs s := by
  calc rxReceive bs s = rxReceive bs (afterBytes [] s) := by rw [afterBytes_nil hrx hbuf]
    _ = afterBytes bs s := rxReceive_afterBytes bs [] s

/-- The unit fills exactly where some sync byte has eleven bytes after it. -/
theorem rxReceive_rx_eq_full_iff (hrx : s.rx = .hunt) (hbuf : s.rxBuf = []) (bs : List Byte) :
    (rxReceive bs s).rx = .full ↔ ∃ i : Nat, bs[i]? = some s.cfg.sync ∧ i + 12 ≤ bs.length := by
  rw [rxReceive_of_hunt hrx hbuf, ← syncWindow_length_eq_iff]
  exact armedMode_eq_full_iff

end Sys2Proof.Machine

namespace Sys2Proof

open Sys2Proof.Machine

/-- Settles O24: the unit holds `syncWindow`, whose start is the index of the first sync byte. -/
theorem rxUnitHoldsTheEarliestSyncWindow : Obligations.RxUnitHoldsTheEarliestSyncWindow := by
  intro s bs hrx hbuf
  refine ⟨rxReceive_rx_eq_full_iff hrx hbuf bs, fun hfull => ?_, fun as => rxReceive_append bs as s⟩
  obtain ⟨i, hi, -⟩ := (rxReceive_rx_eq_full_iff hrx hbuf bs).1 hfull
  refine ⟨bs.idxOf s.cfg.sync, List.getElem?_idxOf (List.mem_of_getElem? hi), fun j hj hsync => ?_, ?_⟩
  · exact Nat.not_le.2 hj (idxOf_le_of_getElem? hsync)
  · rw [rxReceive_of_hunt hrx hbuf]
    rfl

end Sys2Proof
end

section
/-! Runs of like events (41_transaction.md R147 to R153): bytes accepted, bytes received and ticks in a phase, and the read attempt
that gets its frame out and no whole reply back. -/

namespace Sys2Proof.Machine

variable {s : State}

/-! ### Bytes received -/

/-- Received bytes change only the RX unit. -/
theorem rxReceive_eq (bs : List Byte) (s : State) : ∃ rx buf, rxReceive bs s = { s with rx := rx, rxBuf := buf } := by
  induction bs generalizing s with
  | nil => exact ⟨s.rx, s.rxBuf, rfl⟩
  | cons b bs ih =>
    obtain ⟨rx, buf, ho⟩ := onRx_eq b s
    rw [rxReceive_cons, ho]
    exact ih _

/-- A full unit takes no more (R145). -/
theorem rxReceive_of_full (hrx : s.rx = .full) (bs : List Byte) : rxReceive bs s = s := by
  induction bs with
  | nil => rfl
  | cons b bs ih =>
    have ho : onRx b s = s := by simp only [onRx, hrx]
    rw [rxReceive_cons, ho, ih]

/-- Bytes that do not complete a reply in CAPTURE do only what the RX unit does with them. -/
theorem Inv.deliver_receives (h : Inv s) {bs : List Byte} (hopen : s.phase = .capture → (rxReceive bs s).rx ≠ .full) :
    deliver (receives bs) s = rxReceive bs s := by
  induction bs generalizing s with
  | nil => rfl
  | cons b bs ih =>
    have hreact : react (.rxByte b) s = onRx b s := h.react_rxByte fun hp hfull =>
      hopen hp (by rw [rxReceive_cons, rxReceive_of_full hfull]; exact hfull)
    have hphase : (onRx b s).phase = s.phase := by
      obtain ⟨rx, buf, ho⟩ := onRx_eq b s
      rw [ho]
    rw [receives_cons, deliver_cons, hreact]
    exact ih (hreact ▸ inv_react h (.rxByte b)) (by rw [hphase]; exact hopen)

/-! ### Ticks -/

theorem ticks_succ_eq_append (n : Nat) : ticks (n + 1) = ticks n ++ [.tick] := List.replicate_succ'

/-- Ticks that do not reach the limit of their phase only count. -/
theorem Inv.deliver_ticks_of_lt (h : Inv s) (hp : s.phase ≠ .idle) {n : Nat}
    (hn : s.timer + n < phaseLimit s.cfg s.phase) : deliver (ticks n) s = { s with timer := s.timer + n } := by
  induction n with
  | zero => rfl
  | succ n ih =>
    have hcount := ih (by omega)
    have hinv : Inv { s with timer := s.timer + n } := hcount ▸ inv_deliver h (ticks n)
    rw [ticks_succ_eq_append, deliver_append, hcount]
    exact hinv.react_tick_of_lt hp (by exact hn)

/-- The ticks up to the limit of TX or CAPTURE fail the attempt (R153). -/
theorem Inv.deliver_ticks_to_deadline (h : Inv s) (hp : s.phase = .tx ∨ s.phase = .capture) {n : Nat}
    (hn : s.timer + n = phaseLimit s.cfg s.phase) : deliver (ticks n) s = settle (attemptFailed s) := by
  have hbusy : s.phase ≠ .idle := by obtain hp | hp := hp <;> simp [hp]
  have hlt := h.timer_lt_phaseLimit hbusy
  obtain ⟨m, rfl⟩ : ∃ m, n = m + 1 := ⟨n - 1, by omega⟩
  have hcount := h.deliver_ticks_of_lt hbusy (n := m) (by omega)
  have hinv : Inv { s with timer := s.timer + m } := hcount ▸ inv_deliver h (ticks m)
  rw [ticks_succ_eq_append, deliver_append, hcount, ← attemptFailed_timer (s.timer + m) s]
  exact hinv.react_tick_of_deadline hp hn

/-- The ticks of a pause without a whole reply lead to CAPTURE (R151). -/
theorem Inv.deliver_ticks_of_pause (h : Inv s) (hp : s.phase = .pause) (hrx : s.rx ≠ .full) {n : Nat}
    (hn : s.timer + n = s.cfg.tPause) : deliver (ticks n) s = { s with phase := .capture, timer := 0 } := by
  have hlt := h.timer_pause (.inl hp)
  obtain ⟨m, rfl⟩ : ∃ m, n = m + 1 := ⟨n - 1, by omega⟩
  have hcount := h.deliver_ticks_of_lt (by simp [hp]) (n := m) (by rw [hp]; exact Nat.lt_of_succ_le hn.le)
  have hinv : Inv { s with timer := s.timer + m } := hcount ▸ inv_deliver h (ticks m)
  rw [ticks_succ_eq_append, deliver_append, hcount]
  exact hinv.react_tick_ends_pause hp hrx hn

/-! ### Bytes accepted -/

theorem accepts_succ_eq_append (n : Nat) : accepts (n + 1) = accepts n ++ [.txAccept] := List.replicate_succ'

/-- The state after the line took `n` more bytes of the frame. -/
def sent (n : Nat) (s : State) : State :=
  { s with wire := s.wire ++ (s.txFrame.drop s.txIdx).take n, txIdx := s.txIdx + n }

theorem emit_sent {n : Nat} {b : Byte} (hb : s.txFrame[s.txIdx + n]? = some b) : emit b (sent n s) = sent (n + 1) s := by
  simp [emit, sent, List.take_add_one, hb, Nat.add_assoc]

/-- Bytes before the last only go out (R147). -/
theorem Inv.deliver_accepts_of_lt (h : Inv s) (hp : s.phase = .tx) {n : Nat} (hn : s.txIdx + n < s.txFrame.length) :
    deliver (accepts n) s = sent n s := by
  induction n with
  | zero => simp [sent]
  | succ n ih =>
    have hsent := ih (by omega)
    have hb := List.getElem?_eq_getElem (l := s.txFrame) (i := s.txIdx + n) (by omega)
    have hinv : Inv (sent n s) := hsent ▸ inv_deliver h (accepts n)
    rw [accepts_succ_eq_append, deliver_append, hsent, ← emit_sent hb]
    exact hinv.react_txAccept_of_lt hp hb hn

/-- The last byte of a Read frame, without a whole reply: PAUSE follows, or without a pause CAPTURE (R150, R151). -/
theorem Inv.react_txAccept_last_of_read (h : Inv s) {b : Byte} (hp : s.phase = .tx) (hk : s.kind = .read)
    (hrx : s.rx ≠ .full) (hb : s.txFrame[s.txIdx]? = some b) (hi : s.txIdx + 1 = s.txFrame.length) :
    react .txAccept s =
      { emit b s with phase := (if s.cfg.tPause = 0 then .capture else .pause), timer := 0 } := by
  obtain ⟨-, -, -, htCapture⟩ := Config.bounds_of_legal h.legal
  have hdone : txDone (emit b s) = { emit b s with phase := .pause, timer := 0 } := by simp only [txDone, emit, hk]
  rw [react_txAccept_last h.legal hp hb hi, hdone]
  split
  next hz =>
    rw [settle_of_settleOnce (s := { emit b s with phase := .pause, timer := 0 }) h.legal
      (settleOnce_of_pause_over rfl (by exact hz.le))]
    exact settle_of_quiescent (settleOnce_eq_none_of_lt (s := { emit b s with phase := .capture, timer := 0 })
      (fun hp => by cases hp) (fun _ => hrx) htCapture)
  next hz =>
    exact settle_of_quiescent (settleOnce_eq_none_of_lt (s := { emit b s with phase := .pause, timer := 0 })
      (fun hp => by cases hp) (fun hp => by cases hp) (Nat.pos_of_ne_zero hz))

/-! ### A read attempt without an answer -/

theorem Inv.txFrame_length_of_read (h : Inv s) (hp : s.phase ≠ .idle) (hk : s.kind = .read) : s.txFrame.length = 4 := by
  rw [h.frame_of_stage hp]
  simp only [currentFrame, hk, readFrame_length]

/-- The state in which CAPTURE begins (R151). -/
def openCapture (s : State) : State := { s with phase := .capture, timer := 0 }

/-- The Read frame accepted and the pause over, with nothing received: CAPTURE begins. -/
theorem Inv.deliver_read_frame (h : Inv s) (hp : s.phase = .tx) (hk : s.kind = .read) (hrx : s.rx ≠ .full)
    (hi : s.txIdx = 0) : deliver (accepts 4 ++ ticks s.cfg.tPause) s = openCapture (sent 4 s) := by
  have hlen := h.txFrame_length_of_read (by simp [hp]) hk
  have hsent := h.deliver_accepts_of_lt hp (n := 3) (by omega)
  have hinv : Inv (sent 3 s) := hsent ▸ inv_deliver h (accepts 3)
  have hb := List.getElem?_eq_getElem (l := s.txFrame) (i := s.txIdx + 3) (by omega)
  have hlast : react .txAccept (sent 3 s) =
      { sent 4 s with phase := (if s.cfg.tPause = 0 then .capture else .pause), timer := 0 } := by
    rw [hinv.react_txAccept_last_of_read hp hk hrx hb (by simp only [sent]; omega), emit_sent hb]
    rfl
  have hinv' := inv_react hinv .txAccept
  rw [accepts_succ_eq_append, deliver_append, deliver_append, hsent, deliver_cons, deliver_nil, hlast]
  rw [hlast] at hinv'
  by_cases hz : s.cfg.tPause = 0
  · simp only [if_pos hz]
    rw [hz]
    rfl
  · rw [if_neg hz] at hinv' ⊢
    exact hinv'.deliver_ticks_of_pause rfl hrx (Nat.zero_add _)

/-- What the unit received makes no difference to a failed attempt (R158). -/
theorem attemptFailed_unit (rx : RxMode) (buf : List Byte) (s : State) :
    attemptFailed { s with rx := rx, rxBuf := buf } = attemptFailed s := rfl

/-- An attempt whose frame goes out and to which no whole reply comes in CAPTURE fails (R153). -/
theorem Inv.deliver_unanswered (h : Inv s) (hp : s.phase = .tx) (hk : s.kind = .read) (hrx : s.rx = .hunt)
    (hi : s.txIdx = 0) {bs : List Byte} (hbs : NoWholeReply s.cfg bs) :
    deliver (accepts 4 ++ ticks s.cfg.tPause ++ receives bs ++ ticks s.cfg.tCapture) s =
      settle (attemptFailed (openCapture (sent 4 s))) := by
  have hsent := h.deliver_read_frame hp hk (by simp [hrx]) hi
  have hinv : Inv (openCapture (sent 4 s)) := hsent ▸ inv_deliver h _
  have hopen : (rxReceive bs (openCapture (sent 4 s))).rx ≠ .full := fun hfull => by
    obtain ⟨i, hsync, hlen⟩ := (rxReceive_rx_eq_full_iff (s := openCapture (sent 4 s)) hrx (h.buf_empty (.inr hrx)) bs).1 hfull
    exact absurd (hbs i hsync) (Nat.not_lt.2 hlen)
  have hreceived := hinv.deliver_receives fun _ => hopen
  have hinv' := inv_deliver hinv (receives bs)
  obtain ⟨rx, buf, ho⟩ := rxReceive_eq bs (openCapture (sent 4 s))
  rw [hreceived, ho] at hinv'
  rw [deliver_append, deliver_append, hsent, hreceived, ho, ← attemptFailed_unit rx buf]
  exact hinv'.deliver_ticks_to_deadline (.inr rfl) (Nat.zero_add _)

/-! ### A command presented -/

/-- A command's word presented in IDLE: the command is accepted, and nothing is due after it (R144). -/
theorem react_cmd_encode (hl : s.cfg.legal = true) (hp : s.phase = .idle) {i : Instr} (hwf : i.wellFormed = true) :
    react (.cmd (encode i)) s = acceptBody s.cfg (.cmd i) (openCommand s) := by
  rw [react, settle_handle_cmd_idle hl _ hp, decode_encode hwf]

end Sys2Proof.Machine

namespace Sys2Proof

open Sys2Proof.Machine

/-- Settles O35: the one attempt of READ_REG gets no whole reply, and it is the last. -/
theorem partialReplyNeverBecomesData : Obligations.PartialReplyNeverBecomesData := by
  intro s a8 bs h hp ha hbs
  have hbegin := react_cmd_encode h.legal hp (i := .readReg a8) (by rw [Instr.wellFormed, ha]; rfl)
  have hinv : Inv (acceptBody s.cfg (.cmd (.readReg a8)) (openCommand s)) := hbegin ▸ inv_react h _
  refine ⟨_, after_eq_deliver h.legal _, ?_⟩
  rw [List.cons_append, List.cons_append, List.cons_append, deliver_cons, hbegin]
  have hfail := (hinv.deliver_unanswered rfl rfl rfl rfl hbs).trans
    (settle_attemptFailed_of_last fun hleft => Nat.lt_irrefl 1 hleft.2)
  have hdeliver : deliver (accepts 4 ++ ticks s.cfg.tPause ++ receives bs ++ ticks s.cfg.tCapture) _ = _ := hfail
  rw [hdeliver]
  exact ⟨rfl, rfl, rfl, rfl, rfl, rfl⟩

end Sys2Proof
end

section
/-! A read attempt from its first byte (41_transaction.md R148 to R155): what the RX unit makes of its bytes, how the attempt
comes to CAPTURE, and how it fails or is answered. -/

namespace Sys2Proof.Machine

variable {s : State} {c : Config} {as noise r : List Byte}

/-! ### Bytes without a whole reply before the last of them -/

/-- Whatever of the bytes arrives before the last one holds no whole reply: the RX unit is not full before them all. -/
def OpenUntilLast (c : Config) (bs : List Byte) : Prop :=
  ∀ as more : List Byte, as ++ more = bs → more ≠ [] → NoWholeReply c as

theorem getElem?_append_of_eq_some {as : List Byte} {i : Nat} {b : Byte} (h : as[i]? = some b) (bs : List Byte) :
    (as ++ bs)[i]? = some b :=
  (List.getElem?_append_left (List.getElem?_eq_some_iff.1 h).1).trans h

theorem OpenUntilLast.of_append {as bs : List Byte} (h : OpenUntilLast c (as ++ bs)) : OpenUntilLast c as :=
  fun as' more heq hne => h as' (more ++ bs) (by rw [← List.append_assoc, heq]) (by simp [hne])

theorem NoWholeReply.openUntilLast {bs : List Byte} (h : NoWholeReply c bs) : OpenUntilLast c bs := by
  rintro as more rfl - i hi
  have hlen := h i (getElem?_append_of_eq_some hi more)
  rw [List.length_append] at hlen
  omega

/-- Noise and a reply hold no whole reply before the last byte of the reply. -/
theorem ReplyAfterNoise.openUntilLast (h : ReplyAfterNoise c noise r) : OpenUntilLast c (noise ++ r) := by
  obtain ⟨hnoise, hlen, -⟩ := h
  intro as more heq hne i hi
  have hsync : (noise ++ r)[i]? = some c.sync := heq ▸ getElem?_append_of_eq_some hi more
  have hstart : noise.length ≤ i := by
    by_contra hlt
    rw [List.getElem?_append_left (by omega)] at hsync
    exact hnoise (List.mem_of_getElem? hsync)
  have htotal := congrArg List.length heq
  have hmore := List.length_pos_iff.2 hne
  simp only [List.length_append] at htotal
  omega

/-- Without a whole reply the RX unit is not full (R146). -/
theorem armedMode_syncWindow_ne_full {bs : List Byte} (h : NoWholeReply c bs) :
    armedMode (syncWindow c.sync bs) ≠ .full := by
  rw [Ne, armedMode_eq_full_iff, syncWindow_length_eq_iff]
  rintro ⟨i, hi, hlen⟩
  exact absurd (h i hi) (Nat.not_lt.2 hlen)

/-- The window of noise and a reply is the reply. -/
theorem ReplyAfterNoise.syncWindow_eq (h : ReplyAfterNoise c noise r) : syncWindow c.sync (noise ++ r) = r := by
  obtain ⟨hnoise, hlen, hhead⟩ := h
  obtain ⟨rest, rfl⟩ := List.head?_eq_some_iff.1 hhead
  rw [syncWindow, List.idxOf_append_of_notMem hnoise, List.idxOf_cons_self, Nat.add_zero, List.drop_left]
  exact List.take_of_length_le hlen.le

/-- The state with the reply `r` in the RX unit. -/
def withReply (r : List Byte) (s : State) : State := { s with rx := .full, rxBuf := r }

theorem ReplyAfterNoise.afterBytes_eq (h : ReplyAfterNoise s.cfg noise r) : afterBytes (noise ++ r) s = withReply r s := by
  rw [afterBytes, h.syncWindow_eq, armedMode_eq_full_iff.2 h.2.1, withReply]

/-! ### Waiting in CAPTURE -/

/-- The state `n` ticks after CAPTURE began, with the whole Read frame emitted (R151). -/
def capturing (n : Nat) (s : State) : State := { sent 4 s with phase := .capture, timer := n }

/-- Before the deadline of CAPTURE, while the bytes received hold no whole reply, nothing is due. -/
theorem settle_capturing_open {n : Nat} (hn : n < s.cfg.tCapture) (hbs : NoWholeReply s.cfg as) :
    settle (afterBytes as (capturing n s)) = afterBytes as (capturing n s) :=
  settle_of_quiescent (settleOnce_eq_none_of_lt nofun (fun _ => armedMode_syncWindow_ne_full hbs) hn)

/-- Bytes in CAPTURE, up to the one that may complete a reply: each goes to the RX unit, and `Settle` follows the last. -/
theorem deliver_receives_capturing {n : Nat} (hn : n < s.cfg.tCapture) {bs : List Byte}
    (hopen : OpenUntilLast s.cfg (as ++ bs)) : deliver (receives bs) (settle (afterBytes as (capturing n s))) =
      settle (afterBytes (as ++ bs) (capturing n s)) := by
  induction bs generalizing as with
  | nil => rw [List.append_nil]; rfl
  | cons b bs ih =>
    rw [List.append_cons] at hopen ⊢
    rw [settle_capturing_open hn (hopen.of_append as [b] rfl (by simp)), receives_cons, deliver_cons, react, handle,
      onRx_afterBytes]
    exact ih hopen

/-- Ticks in CAPTURE before its deadline only count, while bytes are still to come. -/
theorem deliver_ticks_capturing (h : Inv (settle (afterBytes as (capturing 0 s)))) {n : Nat} (hn : n < s.cfg.tCapture)
    (hopen : n = 0 ∨ NoWholeReply s.cfg as) :
    deliver (ticks n) (settle (afterBytes as (capturing 0 s))) = settle (afterBytes as (capturing n s)) := by
  obtain rfl | hopen := hopen
  · rfl
  · rw [settle_capturing_open (Nat.zero_lt_of_lt hn) hopen] at h ⊢
    rw [settle_capturing_open hn hopen, h.deliver_ticks_of_lt nofun (show 0 + n < s.cfg.tCapture by omega)]
    simp [afterBytes, capturing]

/-! ### From the first byte of the Read frame to CAPTURE -/

/-- A read attempt at its start (R155): no byte of its frame is accepted, none received, and no time is gone. -/
structure AttemptStart (s : State) : Prop where
  inv : Inv s
  phase : s.phase = .tx
  kind : s.kind = .read
  txIdx : s.txIdx = 0
  timer : s.timer = 0
  rx : s.rx = .hunt

theorem AttemptStart.rxBuf (h : AttemptStart s) : s.rxBuf = [] := h.inv.buf_empty (.inr h.rx)

theorem AttemptStart.txFrame (h : AttemptStart s) : s.txFrame = readFrame s.cfg s.curAddr := by
  rw [h.inv.frame_of_stage (by simp [h.phase]), currentFrame, h.kind]

/-- Bytes received in TX only fill the RX unit (R145). -/
theorem AttemptStart.deliver_receives (h : AttemptStart s) (bs : List Byte) :
    deliver (receives bs) s = afterBytes bs s := by
  rw [h.inv.deliver_receives fun hp => by simp [h.phase] at hp]
  exact rxReceive_of_hunt h.rx h.rxBuf bs

/-- The state in which the pause after the Read frame begins (R150). -/
def openPause (s : State) : State := { sent 4 s with phase := .pause, timer := 0 }

/-- The four bytes of a Read frame accepted: its pause begins, and `Settle` follows. -/
theorem Inv.deliver_accepts_of_read (h : Inv s) (hp : s.phase = .tx) (hk : s.kind = .read) (hi : s.txIdx = 0) :
    deliver (accepts 4) s = settle (openPause s) := by
  have hlen := h.txFrame_length_of_read (by simp [hp]) hk
  have hsent := h.deliver_accepts_of_lt hp (n := 3) (by omega)
  have hb := List.getElem?_eq_getElem (l := s.txFrame) (i := s.txIdx + 3) (by omega)
  have hdone : txDone (sent 4 s) = openPause s := by simp only [txDone, sent, hk, openPause]
  rw [accepts_succ_eq_append, deliver_append, hsent, deliver_cons, deliver_nil,
    react_txAccept_last (s := sent 3 s) h.legal hp hb (by simp [sent, hi, hlen]), emit_sent hb, hdone]

/-- The Read frame accepted in time, after any bytes received: PAUSE begins. -/
theorem AttemptStart.deliver_frame (h : AttemptStart s) (inTx : List Byte) {slow : Nat} (hslow : slow < s.cfg.tTx) :
    deliver (receives inTx ++ ticks slow ++ accepts 4) s = settle (afterBytes inTx (openPause s)) := by
  have hreceived := h.deliver_receives inTx
  have hinv := inv_deliver h.inv (receives inTx)
  rw [deliver_append, deliver_append, hreceived]
  rw [hreceived] at hinv
  have hcount := hinv.deliver_ticks_of_lt (n := slow) (by simp [afterBytes, h.phase])
    (by simpa [afterBytes, h.phase, h.timer, phaseLimit] using hslow)
  have hinv' := inv_deliver hinv (ticks slow)
  rw [hcount] at hinv' ⊢
  exact hinv'.deliver_accepts_of_read h.phase h.kind h.txIdx

/-- The ticks of a pause lead to CAPTURE, and `Settle` follows: a reply that came before is captured at once
(92_eei_decisions.md D12). -/
theorem Inv.deliver_ticks_through_pause (h : Inv s) (hp : s.phase = .pause) {n : Nat} (hn : s.timer + n = s.cfg.tPause) :
    deliver (ticks n) s = settle (openCapture s) := by
  have hlt := h.timer_pause (.inl hp)
  obtain ⟨m, rfl⟩ : ∃ m, n = m + 1 := ⟨n - 1, by omega⟩
  have hcount := h.deliver_ticks_of_lt (by simp [hp]) (n := m) (by rw [hp]; exact Nat.lt_of_succ_le hn.le)
  rw [ticks_succ_eq_append, deliver_append, hcount, deliver_cons, deliver_nil, react, handle_tick (by simp [hp])]
  exact settle_of_settleOnce (by exact h.legal) (settleOnce_of_pause_over (by exact hp) (by exact hn.ge))

/-- The pause after the Read frame, with bytes received in it: CAPTURE begins, and `Settle` follows. Without a pause the bytes
come in CAPTURE already. -/
theorem AttemptStart.deliver_pause (h : AttemptStart s) {inTx inPause : List Byte}
    (hinv : Inv (settle (afterBytes inTx (openPause s)))) (hopen : OpenUntilLast s.cfg (inTx ++ inPause)) :
    deliver (receives inPause ++ ticks s.cfg.tPause) (settle (afterBytes inTx (openPause s))) =
      settle (afterBytes (inTx ++ inPause) (capturing 0 s)) := by
  obtain ⟨-, -, -, htCapture⟩ := Config.bounds_of_legal h.inv.legal
  obtain hz | hz := Nat.eq_zero_or_pos s.cfg.tPause
  · rw [settle_of_settleOnce (s := afterBytes inTx (openPause s)) h.inv.legal
      (settleOnce_of_pause_over rfl (by exact hz.le)), hz, ticks_zero, List.append_nil]
    exact deliver_receives_capturing htCapture hopen
  · rw [settle_of_quiescent (settleOnce_eq_none_of_lt (s := afterBytes inTx (openPause s)) nofun nofun hz)] at hinv ⊢
    have hreceived := hinv.deliver_receives (bs := inPause) nofun
    have hinv' := inv_deliver hinv (receives inPause)
    rw [hreceived, rxReceive_afterBytes] at hinv'
    rw [deliver_append, hreceived, rxReceive_afterBytes]
    exact hinv'.deliver_ticks_through_pause rfl (Nat.zero_add _)

/-- The Read frame and its pause, with bytes received in both: CAPTURE begins, and `Settle` follows. -/
theorem AttemptStart.deliver_to_capture (h : AttemptStart s) {inTx inPause : List Byte} {slow : Nat}
    (hslow : slow < s.cfg.tTx) (hopen : OpenUntilLast s.cfg (inTx ++ inPause)) :
    deliver (receives inTx ++ ticks slow ++ accepts 4 ++ (receives inPause ++ ticks s.cfg.tPause)) s =
      settle (afterBytes (inTx ++ inPause) (capturing 0 s)) := by
  have hframe := h.deliver_frame inTx hslow
  rw [deliver_append, hframe]
  exact h.deliver_pause (hframe ▸ inv_deliver h.inv _) hopen

/-! ### How the attempt ends -/

/-- Where and when an attempt fails makes no difference. -/
theorem attemptFailed_place (p : Phase) (n : Nat) (s : State) :
    attemptFailed { s with phase := p, timer := n } = attemptFailed s := by
  by_cases hn : s.kind = .read ∧ s.attempt < s.limit
  · rw [attemptFailed_of_attempt_left hn.1 hn.2]
    exact attemptFailed_of_attempt_left (s := { s with phase := p, timer := n }) hn.1 hn.2
  · rw [attemptFailed_of_last hn]
    exact attemptFailed_of_last (s := { s with phase := p, timer := n }) hn

/-- A frame of which only `k` bytes are accepted in time fails the attempt, whatever was received. -/
theorem AttemptStart.deliver_shortWrite (h : AttemptStart s) (received : List Byte) {k : Nat} (hk : k < 4) :
    deliver (receives received ++ accepts k ++ ticks s.cfg.tTx) s = settle (attemptFailed (sent k s)) := by
  have hlen := h.inv.txFrame_length_of_read (by simp [h.phase]) h.kind
  have hreceived := h.deliver_receives received
  have hinv := inv_deliver h.inv (receives received)
  rw [hreceived] at hinv
  have hsent := hinv.deliver_accepts_of_lt h.phase (n := k) (by simp [afterBytes, h.txIdx, hlen, hk])
  have hinv' := inv_deliver hinv (accepts k)
  rw [hsent] at hinv'
  rw [deliver_append, deliver_append, hreceived, hsent]
  exact hinv'.deliver_ticks_to_deadline (.inl h.phase) (by simp [sent, afterBytes, h.phase, h.timer, phaseLimit])

/-- A frame to which the bytes received hold no whole reply when CAPTURE is over fails the attempt. -/
theorem AttemptStart.deliver_noReply (h : AttemptStart s) {inTx inPause inCapture : List Byte}
    (hbs : NoWholeReply s.cfg (inTx ++ inPause ++ inCapture)) :
    deliver (receives inTx ++ accepts 4 ++ receives inPause ++ ticks s.cfg.tPause ++ receives inCapture ++
      ticks s.cfg.tCapture) s = settle (attemptFailed (sent 4 s)) := by
  obtain ⟨-, -, htTx, htCapture⟩ := Config.bounds_of_legal h.inv.legal
  have hopen := hbs.openUntilLast
  have hcapture := h.deliver_to_capture (slow := 0) htTx hopen.of_append
  have hreceived := deliver_receives_capturing htCapture hopen
  have hinv := inv_deliver (hcapture ▸ inv_deliver h.inv _) (receives inCapture)
  have hwait := settle_capturing_open htCapture hbs
  rw [hreceived, hwait] at hinv
  simp only [deliver_append, ticks_zero, deliver_nil] at hcapture ⊢
  rw [hcapture, hreceived, hwait, ← attemptFailed_place .capture 0]
  exact hinv.deliver_ticks_to_deadline (.inr rfl) (Nat.zero_add _)

/-- An attempt that fails, either way of R153, has emitted the first bytes of its frame. -/
theorem AttemptStart.deliver_failed (h : AttemptStart s) {f : FailedAttempt} (hf : f.Fails s.cfg) :
    deliver (f.events s.cfg) s = settle (attemptFailed (sent f.sent s)) := by
  cases f with
  | shortWrite received k => exact h.deliver_shortWrite received hf
  | noReply inTx inPause inCapture => exact h.deliver_noReply hf

/-- An attempt that is answered in time captures the reply, with its whole frame emitted. -/
theorem AttemptStart.deliver_answer (h : AttemptStart s) {a : Answer} (ha : a.Brings s.cfg noise r) :
    deliver (a.events s.cfg) s = replyCaptured (withReply r (sent 4 s)) := by
  obtain ⟨hreply, hbytes, hslow, hwait, hlate⟩ := ha
  obtain ⟨-, -, -, htCapture⟩ := Config.bounds_of_legal h.inv.legal
  have hopen : OpenUntilLast s.cfg (a.inTx ++ a.inPause ++ a.early ++ a.late) := hbytes ▸ hreply.openUntilLast
  have hcapture := h.deliver_to_capture hslow hopen.of_append.of_append
  have hearly := deliver_receives_capturing htCapture hopen.of_append
  have hinv := inv_deliver (hcapture ▸ inv_deliver h.inv _) (receives a.early)
  rw [hearly] at hinv
  have hpaused := deliver_ticks_capturing hinv hwait
    (or_iff_not_imp_left.2 fun hz => hopen _ _ rfl fun hnil => hz (hlate hnil))
  have hlast := deliver_receives_capturing hwait hopen
  have hdue : settle (withReply r (capturing a.wait s)) = replyCaptured (withReply r (sent 4 s)) :=
    (settle_of_reply (s := withReply r (capturing a.wait s)) h.inv.legal rfl rfl).trans
      (replyCaptured_place .capture a.wait (withReply r (sent 4 s)))
  simp only [Answer.events, deliver_append] at hcapture ⊢
  rw [hcapture, hearly, hpaused, hlast, hbytes,
    ReplyAfterNoise.afterBytes_eq (s := capturing a.wait s) hreply, hdue]

end Sys2Proof.Machine
end

section
/-! The read commands (42_read.md R180 to R184): their values, what accepting one does, and their runs over attempts that fail
and an attempt that is answered. -/

namespace Sys2Proof.Machine

variable {s : State} {i : Instr} {op : TransportOp} {a8 : Byte} {n : Nat}

/-! ### Attempts with others left (R153, R154) -/

/-- The state in which the next attempt starts, after attempts that emitted the first bytes of the frame, `ks` their numbers. -/
def afterAttempts (ks : List Nat) (s : State) : State :=
  { s with wire := s.wire ++ cutCopies s.txFrame ks, attempt := s.attempt + ks.length }

theorem afterAttempts_nil (s : State) : afterAttempts [] s = s := by
  simp [afterAttempts]

theorem afterAttempts_cons (k : Nat) (ks : List Nat) (s : State) :
    afterAttempts (k :: ks) s = afterAttempts ks (afterAttempts [k] s) := by
  simp [afterAttempts, Nat.add_assoc, Nat.add_comm 1]

/-- The next attempt starts as the last one did. -/
theorem AttemptStart.startAttempt_backOff (h : AttemptStart s) (k : Nat) :
    startAttempt (backOff (sent k s)) = afterAttempts [k] s := by
  simp [startAttempt, backOff, disarm, sent, afterAttempts, h.phase, h.txIdx, h.timer, h.rx, h.rxBuf, h.txFrame]

/-- The pause after a failed attempt leads to the next one (R154). -/
theorem deliver_ticks_after_failure (hl : s.cfg.legal = true) (h : Inv (settle (attemptFailed s)))
    (hk : s.kind = .read) (hn : s.attempt < s.limit) :
    deliver (ticks s.cfg.tPause) (settle (attemptFailed s)) = startAttempt (backOff s) := by
  rw [settle_attemptFailed_of_attempt_left hl hk hn] at h ⊢
  split at h
  next hz => rw [if_pos hz, hz]; rfl
  next hz =>
    rw [if_neg hz]
    obtain ⟨m, hm⟩ := Nat.exists_eq_succ_of_ne_zero hz
    have hcount := h.deliver_ticks_of_lt (n := m) nofun (show 0 + m < s.cfg.tPause by omega)
    have hinv := inv_deliver h (ticks m)
    rw [hcount] at hinv
    rw [hm, ticks_succ_eq_append, deliver_append, hcount]
    exact hinv.react_tick_ends_backoff rfl (show 0 + m + 1 = s.cfg.tPause by omega)

/-- A failed attempt with others left, and the pause after it. -/
theorem AttemptStart.deliver_retry (h : AttemptStart s) {f : FailedAttempt} (hf : f.Fails s.cfg) (hn : s.attempt < s.limit) :
    deliver (f.events s.cfg ++ ticks s.cfg.tPause) s = afterAttempts [f.sent] s := by
  have hfailed := h.deliver_failed hf
  rw [deliver_append, hfailed, ← h.startAttempt_backOff]
  exact deliver_ticks_after_failure h.inv.legal (hfailed ▸ inv_deliver h.inv _) h.kind hn

/-- Where the next attempt starts, it is at its start. -/
theorem AttemptStart.afterAttempts (h : AttemptStart s) {ks : List Nat} (hinv : Inv (afterAttempts ks s)) :
    AttemptStart (afterAttempts ks s) :=
  ⟨hinv, h.phase, h.kind, h.txIdx, h.timer, h.rx⟩

/-- Any number of failed attempts with others left, each with its pause. -/
theorem AttemptStart.deliver_retries (h : AttemptStart s) {fs : List FailedAttempt} (hfs : ∀ f ∈ fs, f.Fails s.cfg)
    (hn : s.attempt + fs.length ≤ s.limit) :
    deliver (retries s.cfg fs) s = Machine.afterAttempts (fs.map FailedAttempt.sent) s := by
  induction fs generalizing s with
  | nil => exact (afterAttempts_nil s).symm
  | cons f fs ih =>
    obtain ⟨hf, hfs⟩ := List.forall_mem_cons.1 hfs
    rw [List.length_cons] at hn
    have hretry := h.deliver_retry hf (by omega)
    have hnext := h.afterAttempts (hretry ▸ inv_deliver h.inv _)
    rw [retries_cons, deliver_append, hretry, List.map_cons, afterAttempts_cons f.sent (fs.map FailedAttempt.sent)]
    exact ih hnext hfs (show s.attempt + 1 + fs.length ≤ s.limit by omega)

/-! ### A read command accepted (R181 to R183) -/

/-- A command that reads the register of `a8` with up to `n` attempts. -/
structure ReadCommand (c : Config) (i : Instr) (op : TransportOp) (a8 : Byte) (n : Nat) : Prop where
  wellFormed : i.wellFormed = true
  reads : stageKindOk op .main .read = true
  body : acceptBody c (.cmd i) = beginRead op a8 n

theorem readCommand_readReg (c : Config) (ha : a8.getLsbD 7 = false) : ReadCommand c (.readReg a8) .readReg a8 1 :=
  ⟨congrArg (!·) ha, rfl, rfl⟩

theorem readCommand_readInt (c : Config) (ha : a8.getLsbD 7 = false) :
    ReadCommand c (.readInt a8) .readInt a8 c.maxTries :=
  ⟨congrArg (!·) ha, rfl, rfl⟩

theorem readCommand_readU32 (c : Config) (ha : a8.getLsbD 7 = false) :
    ReadCommand c (.readU32 a8) .readU32 a8 c.maxTries :=
  ⟨congrArg (!·) ha, rfl, rfl⟩

/-- The state in which an accepted read command starts its first attempt. -/
def begun (op : TransportOp) (a8 : Byte) (n : Nat) (s : State) : State := beginRead op a8 n (openCommand s)

theorem ReadCommand.react_cmd (hi : ReadCommand s.cfg i op a8 n) (h : Inv s) (hp : s.phase = .idle) :
    react (.cmd (encode i)) s = begun op a8 n s := by
  rw [react_cmd_encode h.legal hp hi.wellFormed, hi.body, begun]

theorem ReadCommand.attemptStart (hi : ReadCommand s.cfg i op a8 n) (h : Inv s) (hp : s.phase = .idle) :
    AttemptStart (begun op a8 n s) :=
  ⟨hi.react_cmd h hp ▸ inv_react h _, rfl, rfl, rfl, rfl, rfl⟩

/-- The run of a read command, from its first attempt on. -/
theorem ReadCommand.after_eq (hi : ReadCommand s.cfg i op a8 n) (h : Inv s) (hp : s.phase = .idle) (evs : List Event) :
    after (.cmd (encode i) :: evs) s = .next (withEvents [] (deliver evs (begun op a8 n s))) := by
  rw [after_eq_deliver h.legal, deliver_cons, hi.react_cmd h hp]

/-- WRITE_CHECKED is no read command. -/
theorem ReadCommand.op_ne_writeChecked {c : Config} (hi : ReadCommand c i op a8 n) : op ≠ .writeChecked := by
  rintro rfl
  cases hi.reads

/-! ### The command that is answered (R180) -/

/-- An attempt of a read command that is answered in time completes it with the payload. -/
theorem AttemptStart.deliver_answer_of_read (h : AttemptStart s) (hop : s.op ≠ .writeChecked) {a : Answer}
    {noise r : List Byte} (ha : a.Brings s.cfg noise r) :
    deliver (a.events s.cfg) s = finish statusOk (replyValue r) (recordReply (withReply r (sent 4 s))) := by
  have hsk : stageKindOk s.op s.stage .read = true := h.kind ▸ h.inv.stage_of_op (by simp [h.phase])
  rw [h.deliver_answer ha, replyCaptured_eq]
  exact (subDone_of_reply (s := recordReply (withReply r (sent 4 s))) hsk r).trans (if_pos hop)

/-- A read command whose attempts fail but for one that is answered in time completes with the payload of that answer. -/
theorem ReadCommand.exists_after_answer (hi : ReadCommand s.cfg i op a8 n) (h : Inv s) (hp : s.phase = .idle)
    {fs : List FailedAttempt} (hn : fs.length < n) (hfs : ∀ f ∈ fs, f.Fails s.cfg) {a : Answer} {noise r : List Byte}
    (ha : a.Brings s.cfg noise r) :
    ∃ t, after (.cmd (encode i) :: (retries s.cfg fs ++ a.events s.cfg)) s = .next t ∧
      t.phase = .idle ∧ t.respValid = true ∧ t.respStatus = 0 ∧ t.respData = replyValue r ∧
      t.respCrcOk = replyCrcOk s.cfg r ∧
      t.wire = s.wire ++ cutCopies (readFrame s.cfg (a8.extractLsb' 0 7)) (fs.map FailedAttempt.sent) ++
        readFrame s.cfg (a8.extractLsb' 0 7) ∧
      t.diag = s.diag ++ diagRecords s.cfg (a8.extractLsb' 0 7) r ∧ t.crc = s.crc := by
  have hstart := hi.attemptStart h hp
  have hretries := hstart.deliver_retries hfs (show 1 + fs.length ≤ n by omega)
  have hlast := hstart.afterAttempts (hretries ▸ inv_deliver hstart.inv _)
  have hop := hi.op_ne_writeChecked
  have hanswer := hlast.deliver_answer_of_read hop ha
  refine ⟨_, hi.after_eq h hp _, ?_⟩
  rw [deliver_append]
  have hdeliver : deliver (a.events s.cfg) (deliver (retries s.cfg fs) (begun op a8 n s)) = _ :=
    (congrArg _ hretries).trans hanswer
  rw [hdeliver]
  exact ⟨rfl, rfl, rfl, rfl, Bool.true_and _, rfl, rfl, by
    simp [recordReply, withReply, sent, afterAttempts, begun, beginRead, startRead]⟩

end Sys2Proof.Machine

namespace Sys2Proof

open Sys2Proof.Machine

/-- Settles O23: the signed and the unsigned number of a word. -/
theorem readResultsHaveTheirSignedness : Obligations.ReadResultsHaveTheirSignedness := by
  refine fun d => ⟨?_, rfl, rfl⟩
  have hsigned : resultValue .readInt d = d.toInt := rfl
  rw [hsigned, BitVec.toInt_eq_toNat_cond]
  split <;> split <;> omega

/-- Settles O27: the word is accepted, and its body starts the first attempt. -/
theorem readCommandsStartTheirFirstAttempt : Obligations.ReadCommandsStartTheirFirstAttempt := fun _ _ hp =>
  ⟨congrArg Host.Outcome.next (accept_idle _ hp), congrArg Host.Outcome.next (accept_idle _ hp),
    congrArg Host.Outcome.next (accept_idle _ hp)⟩

/-- Settles O32: the failed attempts only move the next one on, and the answered one ends the command. -/
theorem retriedReadReturnsTheLastReply : Obligations.RetriedReadReturnsTheLastReply := by
  intro s a8 fs answer noise r i h hp ha hi hn hfs hanswer
  rw [List.cons_append]
  obtain rfl | rfl := hi
  · exact (readCommand_readInt s.cfg ha).exists_after_answer h hp hn hfs hanswer
  · exact (readCommand_readU32 s.cfg ha).exists_after_answer h hp hn hfs hanswer

/-- Settles O30: the one attempt is answered. -/
theorem readRegReturnsTheReply : Obligations.ReadRegReturnsTheReply := by
  intro s a8 answer noise r h hp ha hanswer
  simpa using (readCommand_readReg s.cfg ha).exists_after_answer h hp (fs := []) Nat.one_pos (by simp) hanswer

/-- Settles O36: the frame of the one attempt is cut short, and there is no other attempt. -/
theorem shortReadFrameTimesOut : Obligations.ShortReadFrameTimesOut := by
  intro s a8 k h hp ha hk
  have hi := readCommand_readReg s.cfg ha
  have hfailed := ((hi.attemptStart h hp).deliver_shortWrite [] hk).trans
    (settle_attemptFailed_of_last fun hleft => Nat.lt_irrefl 1 hleft.2)
  refine ⟨_, (List.cons_append ▸ hi.after_eq h hp _), ?_⟩
  have hdeliver : deliver (accepts k ++ ticks s.cfg.tTx) (begun .readReg a8 1 s) = _ := hfailed
  rw [hdeliver]
  exact ⟨rfl, rfl, rfl, rfl, rfl, rfl, rfl, rfl⟩

end Sys2Proof
end

section
/-! What a read command puts on the wire, whatever the line does (42_read.md R181 to R183; 41_transaction.md R153): the copies
of its Read frame so far and the attempts that are left. -/

namespace Sys2Proof.Machine

variable {s t : State} {w F : List Byte} {n : Nat}

/-! ### A read command that runs -/

/-- A command that reads in stage MAIN does nothing but read. -/
theorem kind_of_reads {op : TransportOp} {st : Stage} {k : Kind} (hop : stageKindOk op .main .read = true)
    (hk : stageKindOk op st k = true) : k = .read := by
  cases op <;> simp_all [stageKindOk]

/-- It reads the register it names (10_state.md R28). -/
theorem readAddress_of_reads {op : TransportOp} (hop : stageKindOk op .main .read = true) (c : Config) (a : Reg7) :
    readAddress c a op = a := by
  cases op with
  | readReg => rfl
  | readInt => rfl
  | readU32 => rfl
  | writeReg => rfl
  | writeChecked => cases hop

/-- The end of its one sub-transaction is its end (R180). -/
theorem subDone_of_reads (hop : stageKindOk s.op .main .read = true) (ok : Bool) (v : Word32) :
    (subDone ok v s).phase = .idle := by
  obtain ⟨st, d, -, h⟩ | ⟨hw, -⟩ | ⟨hw, -⟩ := subDone_cases ok v s
  · rw [h]; rfl
  · rw [hw] at hop; cases hop
  · rw [hw] at hop; cases hop

/-- A turn of the loop keeps what `Accept` latched (10_state.md R23). -/
theorem settleOnce_latched (h : settleOnce s = some t) : t.op = s.op ∧ t.addr = s.addr := by
  obtain ⟨-, -, rfl⟩ | ⟨-, -, -, rfl⟩ | ⟨-, -, rfl⟩ | ⟨-, -, rfl⟩ | ⟨-, -, -, rfl⟩ | ⟨-, -, rfl⟩ := settleOnce_cases h
  · unfold txDone; split <;> simp
  · obtain ⟨-, -, h⟩ | ⟨-, h⟩ := attemptFailed_cases s <;> simp [h]
  · exact ⟨rfl, rfl⟩
  · simp [replyCaptured]
  · obtain ⟨-, -, h⟩ | ⟨-, h⟩ := attemptFailed_cases s <;> simp [h]
  · simp

/-! ### Copies of the frame -/

/-- The attempts whose copy of the Read frame is not over: the one in TX and those after it. -/
def attemptsLeft (s : State) : Nat :=
  match s.phase with
  | .idle => 0
  | .tx => s.limit - s.attempt + 1
  | .pause => s.limit - s.attempt
  | .capture => s.limit - s.attempt
  | .backoff => s.limit - s.attempt + 1

theorem attemptsLeft_idle (hp : s.phase = .idle) : attemptsLeft s = 0 := by simp only [attemptsLeft, hp]
theorem attemptsLeft_tx (hp : s.phase = .tx) : attemptsLeft s = s.limit - s.attempt + 1 := by
  simp only [attemptsLeft, hp]

/-- The attempts after this one are left. -/
theorem limit_sub_attempt_le_attemptsLeft (hp : s.phase ≠ .idle) : s.limit - s.attempt ≤ attemptsLeft s := by
  unfold attemptsLeft
  cases hph : s.phase with
  | idle => exact absurd hph hp
  | tx => exact Nat.le_succ _
  | pause => exact le_rfl
  | capture => exact le_rfl
  | backoff => exact Nat.le_succ _

/-- The bytes of the frame in TX that are accepted. -/
def copySoFar (s : State) : List Byte := if s.phase = .tx then s.txFrame.take s.txIdx else []

/-- After `w` the wire holds copies of the frame `F`, and with the attempts left they are at most `n`. -/
def HoldsCopies (w F : List Byte) (n : Nat) (s : State) : Prop :=
  ∃ ks : List Nat, ks.length + attemptsLeft s ≤ n ∧ s.wire = w ++ cutCopies F ks ++ copySoFar s

theorem cutCopies_append_singleton (F : List Byte) (ks : List Nat) (k : Nat) :
    cutCopies F (ks ++ [k]) = cutCopies F ks ++ F.take k := by
  simp [cutCopies]

/-- Where the copy of the attempt in TX is counted with the others. -/
theorem HoldsCopies.closed (h : HoldsCopies w F n s) (hp : s.phase ≠ .idle) (hF : s.txFrame = F) :
    ∃ ks : List Nat, ks.length + (s.limit - s.attempt) ≤ n ∧ s.wire = w ++ cutCopies F ks := by
  obtain ⟨ks, hlen, hwire⟩ := h
  by_cases htx : s.phase = .tx
  · refine ⟨ks ++ [s.txIdx], ?_, ?_⟩
    · rw [attemptsLeft_tx htx] at hlen
      simp only [List.length_append, List.length_singleton]
      omega
    · rw [hwire, copySoFar, if_pos htx, hF, cutCopies_append_singleton, List.append_assoc]
  · refine ⟨ks, ?_, by rw [hwire, copySoFar, if_neg htx, List.append_nil]⟩
    exact (Nat.add_le_add_left (limit_sub_attempt_le_attemptsLeft hp) _).trans hlen

/-- Where no frame is in TX, or none of its bytes is accepted. -/
theorem HoldsCopies.of_closed {ks : List Nat} (hlen : ks.length + attemptsLeft s ≤ n) (hwire : s.wire = w ++ cutCopies F ks)
    (hcopy : s.phase = .tx → s.txIdx = 0) : HoldsCopies w F n s := by
  refine ⟨ks, hlen, ?_⟩
  unfold copySoFar
  split
  next hp => rw [hcopy hp, List.take_zero, List.append_nil, hwire]
  next => rw [List.append_nil, hwire]

/-! ### Every event keeps it -/

/-- A read command that runs, or has run, since the wire held `w`. -/
structure ReadRun (w F : List Byte) (n : Nat) (s : State) : Prop where
  loop : LoopInv s
  reads : stageKindOk s.op .main .read = true
  frame : readFrame s.cfg s.addr = F
  copies : HoldsCopies w F n s

theorem ReadRun.kind (h : ReadRun w F n s) (hp : s.phase ≠ .idle) : s.kind = .read :=
  kind_of_reads h.reads (h.loop.running hp).stage_kind

theorem ReadRun.txFrame (h : ReadRun w F n s) (hp : s.phase ≠ .idle) : s.txFrame = F := by
  have hrun := h.loop.running hp
  have hk := h.kind hp
  rw [hrun.frame, currentFrame, hk, ← h.frame, (hrun.target hk).2, readAddress_of_reads h.reads]

/-- In a turn of the loop the copy in TX is closed, and another attempt or the end follows. -/
theorem ReadRun.copies_settleOnce (h : ReadRun w F n s) (hs : settleOnce s = some t) : HoldsCopies w F n t := by
  have hp : s.phase ≠ .idle := fun hp => by simp [settleOnce_idle hp] at hs
  obtain ⟨ks, hlen, hwire⟩ := h.copies.closed hp (h.txFrame hp)
  have hended (u : State) (hu : u.phase = .idle) (hw : u.wire = s.wire) : HoldsCopies w F n u :=
    .of_closed (ks := ks) (by rw [attemptsLeft_idle hu]; omega) (hw.trans hwire) fun htx => by simp [hu] at htx
  have hfailed : HoldsCopies w F n (attemptFailed s) := by
    obtain ⟨-, hlt, ho⟩ | ⟨-, ho⟩ := attemptFailed_cases s <;> rw [ho]
    · exact .of_closed (ks := ks) (show ks.length + (s.limit - (s.attempt + 1) + 1) ≤ n by omega) hwire nofun
    · exact hended _ (subDone_of_reads (s := disarm s) h.reads false 0) (subDone_wire ..)
  obtain ⟨-, -, rfl⟩ | ⟨-, -, -, rfl⟩ | ⟨-, -, rfl⟩ | ⟨-, -, rfl⟩ | ⟨-, -, -, rfl⟩ | ⟨hb, -, rfl⟩ := settleOnce_cases hs
  · have hdone : txDone s = { s with phase := .pause, timer := 0 } := by simp only [txDone, h.kind hp]
    rw [hdone]
    exact .of_closed hlen hwire nofun
  · exact hfailed
  · exact .of_closed hlen hwire nofun
  · exact hended _ (subDone_of_reads (s := recordReply s) h.reads true _) (subDone_wire ..)
  · exact hfailed
  · obtain ⟨ks, hlen, hwire⟩ := h.copies
    have hleft : attemptsLeft (startAttempt s) = attemptsLeft s := by simp [attemptsLeft, hb]
    exact .of_closed (ks := ks) (hleft ▸ hlen) (by simpa [copySoFar, hb] using hwire) fun _ => rfl

theorem ReadRun.settleOnce (h : ReadRun w F n s) (hs : settleOnce s = some t) : ReadRun w F n t := by
  obtain ⟨hop, haddr⟩ := settleOnce_latched hs
  exact ⟨h.loop.settleOnce hs, hop ▸ h.reads, by rw [settleOnce_cfg hs, haddr, h.frame], h.copies_settleOnce hs⟩

/-- A byte accepted lengthens the copy in TX; no other event of the line or the clock touches the wire. -/
theorem HoldsCopies.handle (h : HoldsCopies w F n s) {ev : Event} (hcmd : ∀ w, ev ≠ .cmd w) (hreset : ev ≠ .reset) :
    HoldsCopies w F n (handle ev s) := by
  cases ev with
  | reset => exact absurd rfl hreset
  | cmd w => exact absurd rfl (hcmd w)
  | rxByte b =>
    obtain ⟨rx, buf, ho⟩ := onRx_eq b s
    rw [Machine.handle, ho]
    exact h
  | txAccept =>
    obtain ⟨-, ho⟩ | ⟨b, hb, ho⟩ := onTxAccept_cases s <;> rw [Machine.handle, ho]
    · exact h
    · obtain ⟨hp, hbyte⟩ := (txByte_eq_some_iff b).1 hb
      obtain ⟨ks, hlen, hwire⟩ := h
      refine ⟨ks, hlen, ?_⟩
      simp only [hwire, copySoFar, hp, if_true, List.take_add_one, hbyte, Option.toList_some, List.append_assoc]
  | tick =>
    rw [Machine.handle, onTick]
    split <;> exact h

theorem ReadRun.react (h : ReadRun w F n s) {ev : Event} (hreset : ev ≠ .reset) (hcmd : ∀ w, ev ≠ .cmd w) :
    ReadRun w F n (react ev s) := by
  refine settle_induct (fun _ _ => ReadRun.settleOnce) ⟨h.loop.handle ev, ?_, ?_, h.copies.handle hcmd hreset⟩ <;>
    obtain ⟨rx, buf, wire, i, m, ho⟩ := handle_line_eq hcmd hreset s <;> rw [ho]
  exacts [h.reads, h.frame]

theorem ReadRun.deliver (h : ReadRun w F n s) {evs : List Event} (hevs : LineEvents evs) :
    ReadRun w F n (deliver evs s) := by
  induction evs generalizing s with
  | nil => exact h
  | cons ev evs ih =>
    obtain ⟨⟨hreset, hcmd⟩, hevs⟩ := List.forall_mem_cons.1 hevs
    exact ih (h.react hreset hcmd) hevs

/-- At every time the wire holds copies of the frame, one for each attempt so far at most. -/
theorem ReadRun.exists_copies (h : ReadRun w F n s) : ∃ ks : List Nat, ks.length ≤ n ∧ s.wire = w ++ cutCopies F ks := by
  by_cases hp : s.phase = .idle
  · obtain ⟨ks, hlen, hwire⟩ := h.copies
    exact ⟨ks, by omega, by simpa [copySoFar, hp] using hwire⟩
  · obtain ⟨ks, hlen, hwire⟩ := h.copies.closed hp (h.txFrame hp)
    exact ⟨ks, by omega, hwire⟩

/-- A read command that starts has emitted nothing and has its attempts left. -/
theorem ReadCommand.readRun {i : Instr} {op : TransportOp} {a8 : Byte} (hi : ReadCommand s.cfg i op a8 n) (hn : 1 ≤ n)
    (h : Inv s) (hp : s.phase = .idle) :
    ReadRun s.wire (readFrame s.cfg (a8.extractLsb' 0 7)) n (begun op a8 n s) :=
  ⟨.of_inv (hi.attemptStart h hp).inv, hi.reads, rfl,
    .of_closed (ks := []) (show 0 + (n - 1 + 1) ≤ n by omega) (List.append_nil _).symm fun _ => rfl⟩

theorem ReadCommand.exists_copies {i : Instr} {op : TransportOp} {a8 : Byte} (hi : ReadCommand s.cfg i op a8 n) (hn : 1 ≤ n)
    (h : Inv s) (hp : s.phase = .idle) {evs : List Event} (hevs : LineEvents evs)
    (ht : after (.cmd (encode i) :: evs) s = .next t) :
    ∃ ks : List Nat, ks.length ≤ n ∧ t.wire = s.wire ++ cutCopies (readFrame s.cfg (a8.extractLsb' 0 7)) ks := by
  rw [hi.after_eq h hp] at ht
  cases ht
  exact ((hi.readRun hn h hp).deliver hevs).exists_copies

end Sys2Proof.Machine

namespace Sys2Proof

open Sys2Proof.Machine

/-- Settles O44: every event keeps the copies on the wire and the attempts left within the command's number of attempts. -/
theorem readCommandsEmitOnlyTheirReadFrame : Obligations.ReadCommandsEmitOnlyTheirReadFrame := by
  intro s t a8 i n evs h hp ha hi hevs ht
  obtain ⟨⟨hmax, -⟩, -⟩ := Config.bounds_of_legal h.legal
  obtain ⟨rfl, rfl⟩ | ⟨rfl, rfl⟩ | ⟨rfl, rfl⟩ := hi
  · exact (readCommand_readReg s.cfg ha).exists_copies le_rfl h hp hevs ht
  · exact (readCommand_readInt s.cfg ha).exists_copies hmax h hp hevs ht
  · exact (readCommand_readU32 s.cfg ha).exists_copies hmax h hp hevs ht

end Sys2Proof
end

section
/-! A Write frame on the line (41_transaction.md R147 to R153; 43_write.md R200, R201): how it goes out or times out, with ticks and
received bytes anywhere among the bytes accepted, and WRITE_REG, which sends one and ends. -/

namespace Sys2Proof.Machine

variable {s : State} {evs : List Event} {a8 : Byte} {d : Word32} {k : Nat}

/-! ### While the frame is sent -/

/-- The state after the line took `n` more bytes of the frame and `m` more ticks passed. -/
def sentWithin (n m : Nat) (s : State) : State := { sent n s with timer := s.timer + m }

theorem sentWithin_zero (s : State) : sentWithin 0 0 s = s := by
  simp [sentWithin, sent]

theorem sentWithin_emit {b : Byte} (hb : s.txFrame[s.txIdx]? = some b) (n m : Nat) :
    sentWithin n m (emit b s) = sentWithin (n + 1) m s := by
  obtain ⟨hlt, rfl⟩ := List.getElem?_eq_some_iff.1 hb
  have htake := List.take_succ_cons (a := s.txFrame[s.txIdx]) (as := s.txFrame.drop (s.txIdx + 1)) (i := n)
  rw [← List.drop_eq_getElem_cons hlt] at htake
  simp [sentWithin, sent, emit, htake, Nat.add_assoc, Nat.add_comm 1]

theorem sentWithin_tick (n m : Nat) (s : State) :
    sentWithin n m { s with timer := s.timer + 1 } = sentWithin n (m + 1) s := by
  simp [sentWithin, sent, Nat.add_assoc, Nat.add_comm 1]

/-- The RX unit is off while a Write frame is sent, so a byte received is lost (R145). -/
theorem Inv.react_rxByte_of_write (h : Inv s) (hp : s.phase = .tx) (hk : s.kind = .write) (b : Byte) :
    react (.rxByte b) s = s := by
  have hoff : s.rx = .off := by
    by_contra hrx
    cases hk.symm.trans (h.armed_phase hrx).1
  rw [h.react_rxByte (by simp [hp]), onRx, hoff]

/-- While bytes and ticks are to come, the line's events send the frame and count the time, in any order. -/
theorem Inv.deliver_write_open (h : Inv s) (hp : s.phase = .tx) (hk : s.kind = .write) (hevs : LineEvents evs)
    (hi : s.txIdx + evs.count .txAccept < 8) (ht : s.timer + tickCount evs < s.cfg.tTx) :
    deliver evs s = sentWithin (evs.count .txAccept) (tickCount evs) s := by
  induction evs generalizing s with
  | nil => exact (sentWithin_zero s).symm
  | cons ev evs ih =>
    obtain ⟨⟨hreset, hcmd⟩, hrest⟩ := List.forall_mem_cons.1 hevs
    have hinv := inv_react h ev
    rw [deliver_cons]
    cases ev with
    | reset => exact absurd rfl hreset
    | cmd w => exact absurd rfl (hcmd w)
    | rxByte b =>
      rw [h.react_rxByte_of_write hp hk]
      simp only [tickCount, List.count_cons, beq_iff_eq, reduceCtorEq, if_false, Nat.add_zero] at hi ht ⊢
      exact ih h hp hk hrest hi ht
    | txAccept =>
      have hlen := h.txFrame_length_of_write (by simp [hp]) hk
      simp only [tickCount, List.count_cons, beq_iff_eq, reduceCtorEq, if_false, if_true, Nat.add_zero] at hi ht ⊢
      have hb := List.getElem?_eq_getElem (l := s.txFrame) (i := s.txIdx) (by omega)
      rw [h.react_txAccept_of_lt hp hb (by omega)] at hinv ⊢
      rw [← sentWithin_emit hb]
      exact ih hinv hp hk hrest (by simp only [emit]; omega) ht
    | tick =>
      simp only [tickCount, List.count_cons, beq_iff_eq, reduceCtorEq, if_false, if_true, Nat.add_zero] at hi ht ⊢
      rw [h.react_tick_of_lt (by simp [hp]) (by simp only [hp, phaseLimit]; omega)] at hinv ⊢
      rw [← sentWithin_tick]
      exact ih hinv hp hk hrest hi (by simp only [tickCount]; omega)

/-! ### The frame from its first byte -/

/-- A Write frame at its start (R155): no byte of it is accepted, and no time is gone. -/
structure WriteStart (s : State) : Prop where
  inv : Inv s
  phase : s.phase = .tx
  kind : s.kind = .write
  txIdx : s.txIdx = 0
  timer : s.timer = 0

/-- The eight bytes accepted in time end the sub-transaction. -/
theorem WriteStart.deliver_wholeWrite (h : WriteStart s) (hw : WholeWrite s.cfg evs) :
    deliver evs s = subDone true 0 (sent 8 s) := by
  obtain ⟨hline, hcount, hlast, hticks⟩ := hw
  obtain ⟨init, rfl⟩ := List.getLast?_eq_some_iff.1 hlast
  have hseven : init.count .txAccept = 7 := by simpa using hcount
  have htime : tickCount init < s.cfg.tTx := by simpa [tickCount] using hticks
  have hopen := h.inv.deliver_write_open h.phase h.kind (fun e he => hline e (List.mem_append_left _ he))
    (by simp [h.txIdx, hseven]) (by simpa [h.timer] using htime)
  have hinv := inv_deliver h.inv init
  have hlen := h.inv.txFrame_length_of_write (by simp [h.phase]) h.kind
  have hb := List.getElem?_eq_getElem (l := s.txFrame) (i := s.txIdx + 7) (by simp [h.txIdx, hlen])
  rw [hopen, hseven] at hinv
  rw [deliver_append, hopen, hseven, deliver_cons, deliver_nil,
    hinv.react_txAccept_last_of_write h.phase h.kind hb (by simp [sentWithin, sent, h.txIdx]), ← emit_sent hb]
  exact subDone_place true 0 s.phase (s.timer + tickCount init) (emit _ (sent 7 s))

/-- The limit of TX reached with fewer bytes accepted ends the command. -/
theorem WriteStart.deliver_shortWrite (h : WriteStart s) (hw : ShortWrite s.cfg k evs) :
    deliver evs s = finish (if s.op = .writeChecked then statusOk else statusTransportTimeout) 0 (sent k s) := by
  obtain ⟨hline, hcount, hk, hlast, hticks⟩ := hw
  obtain ⟨init, rfl⟩ := List.getLast?_eq_some_iff.1 hlast
  have hsent : init.count .txAccept = k := by simpa using hcount
  have htime : tickCount init + 1 = s.cfg.tTx := by simpa [tickCount] using hticks
  have hopen := h.inv.deliver_write_open h.phase h.kind (fun e he => hline e (List.mem_append_left _ he))
    (by simpa [h.txIdx, hsent] using hk) (by rw [h.timer]; omega)
  have hinv := inv_deliver h.inv init
  rw [hopen, hsent] at hinv
  rw [deliver_append, hopen, hsent, deliver_cons, deliver_nil,
    hinv.react_tick_of_write_deadline h.phase h.kind (by simpa [sentWithin, sent, h.timer] using htime)]
  rfl

/-! ### WRITE_REG (R200) -/

/-- The state in which an accepted WRITE_REG starts its Write frame. -/
def begunWrite (a8 : Byte) (d : Word32) (s : State) : State :=
  startWrite (regNumber a8) d (enterStage .main (latch .writeReg a8 d (openCommand s)))

theorem react_writeReg (h : Inv s) (hp : s.phase = .idle) (ha : a8.getLsbD 7 = false) :
    react (.cmd (encode (.writeReg a8 d))) s = begunWrite a8 d s :=
  react_cmd_encode h.legal hp (congrArg (!·) ha)

theorem writeStart_begunWrite (h : Inv s) (hp : s.phase = .idle) (ha : a8.getLsbD 7 = false) :
    WriteStart (begunWrite a8 d s) :=
  ⟨react_writeReg h hp ha ▸ inv_react h _, rfl, rfl, rfl, rfl⟩

/-- The run of WRITE_REG, from its Write frame on. -/
theorem after_writeReg (h : Inv s) (hp : s.phase = .idle) (ha : a8.getLsbD 7 = false) (evs : List Event) :
    after (.cmd (encode (.writeReg a8 d)) :: evs) s = .next (withEvents [] (deliver evs (begunWrite a8 d s))) := by
  rw [after_eq_deliver h.legal, deliver_cons, react_writeReg h hp ha]

end Sys2Proof.Machine

namespace Sys2Proof

open Sys2Proof.Machine

/-- Settles O28: the word is accepted, and its body starts the Write frame. -/
theorem writeRegStartsItsFrame : Obligations.WriteRegStartsItsFrame := fun _ _ _ hp =>
  congrArg Host.Outcome.next (accept_idle _ hp)

/-- Settles O37: the one Write frame goes out or times out, and the command ends with it. -/
theorem writeRegCompletesOrTimesOut : Obligations.WriteRegCompletesOrTimesOut := by
  intro s a8 d evs h hp ha
  have hstart := writeStart_begunWrite (d := d) h hp ha
  refine ⟨fun hw => ⟨_, after_writeReg h hp ha evs, ?_⟩, fun k hw => ⟨_, after_writeReg h hp ha evs, ?_⟩⟩
  · rw [hstart.deliver_wholeWrite hw, subDone_true_of_writeReg rfl]
    exact ⟨rfl, rfl, rfl, rfl, rfl, rfl, rfl, rfl⟩
  · rw [hstart.deliver_shortWrite hw]
    exact ⟨rfl, rfl, rfl, rfl, rfl, rfl, rfl, rfl⟩

end Sys2Proof
end

section
/-! WRITE_CHECKED (43_write.md R202 to R204): a counter read that is answered or fails after any number of failed attempts, and the
command's way from its first counter read over its Write frame to its second. -/

namespace Sys2Proof.Machine

variable {s : State} {fs gs : List FailedAttempt} {last : FailedAttempt} {a : Answer} {k : Nat}
  {noise r : List Byte} {a8 : Byte} {d : Word32} {evs : List Event}

/-! ### A read sub-transaction from its first attempt to its end -/

/-- The state in which a read sub-transaction ends with the reply `r`, after failed attempts that emitted the first bytes of their
frames, `ks` their numbers (R152). -/
def answered (ks : List Nat) (r : List Byte) (s : State) : State :=
  { s with
    wire := s.wire ++ cutCopies s.txFrame ks ++ (s.txFrame.drop s.txIdx).take 4, txIdx := s.txIdx + 4
    attempt := s.attempt + ks.length, rx := .off, rxBuf := []
    diag := s.diag ++ diagRecords s.cfg s.curAddr r, crcAcc := accumulateCrc s.cfg s.crcAcc r }

theorem recordReply_withReply (ks : List Nat) (r : List Byte) (s : State) :
    recordReply (withReply r (sent 4 (afterAttempts ks s))) = answered ks r s := by
  simp only [recordReply, withReply, sent, afterAttempts, disarm, answered]

/-- Attempts that fail with others left, and one that is answered in time. -/
theorem AttemptStart.deliver_answered (h : AttemptStart s) (hn : s.attempt + fs.length ≤ s.limit)
    (hfs : ∀ f ∈ fs, f.Fails s.cfg) (ha : a.Brings s.cfg noise r) :
    deliver (retries s.cfg fs ++ a.events s.cfg) s =
      subDone true (replyValue r) (answered (fs.map FailedAttempt.sent) r s) := by
  have hretries := h.deliver_retries hfs hn
  have hlast := h.afterAttempts (hretries ▸ inv_deliver h.inv _)
  rw [deliver_append, hretries, ← recordReply_withReply]
  exact hlast.deliver_answer ha

/-- The whole frame follows the frames of the failed attempts. -/
theorem AttemptStart.answered_wire (h : AttemptStart s) (ks : List Nat) (r : List Byte) :
    (answered ks r s).wire = s.wire ++ cutCopies s.txFrame ks ++ s.txFrame := by
  have hlen := h.inv.txFrame_length_of_read (by simp [h.phase]) h.kind
  simp [answered, h.txIdx, List.take_of_length_le hlen.le]

/-- Attempts of which the last fails too end the command. -/
theorem AttemptStart.deliver_failedRead (h : AttemptStart s) (hn : s.attempt + fs.length = s.limit)
    (hfs : ∀ f ∈ fs, f.Fails s.cfg) (hl : last.Fails s.cfg) :
    deliver (failedRead s.cfg fs last) s = finish (if s.op = .writeChecked then statusOk else statusTransportTimeout) 0
      (sent last.sent (Machine.afterAttempts (fs.map FailedAttempt.sent) s)) := by
  have hretries := h.deliver_retries hfs hn.le
  have hlast := h.afterAttempts (hretries ▸ inv_deliver h.inv _)
  rw [failedRead, deliver_append, hretries]
  refine (hlast.deliver_failed hl).trans (settle_attemptFailed_of_last fun hleft => ?_)
  have hlt : s.attempt + (fs.map FailedAttempt.sent).length < s.limit := hleft.2
  rw [List.length_map, hn] at hlt
  exact Nat.lt_irrefl _ hlt

/-- The last frame is cut as the others may be. -/
theorem AttemptStart.sent_afterAttempts_wire (h : AttemptStart s) (ks : List Nat) (k : Nat) :
    (sent k (Machine.afterAttempts ks s)).wire = s.wire ++ cutCopies s.txFrame (ks ++ [k]) := by
  simp [sent, Machine.afterAttempts, h.txIdx, cutCopies_append_singleton]

/-! ### The three sub-transactions (R203) -/

/-- WRITE_CHECKED goes on to its Write frame, with the byte `b` of the counter kept. -/
def goOnToWrite (b : Byte) (s : State) : State := startWrite s.addr s.data { s with before := b, stage := .write }

/-- WRITE_CHECKED goes on to its second counter read. -/
def goOnToSecondRead (s : State) : State := startRead s.cfg.ifcntAddr s.cfg.chkTries { s with stage := .after }

theorem subDone_of_first_reply (hop : s.op = .writeChecked) (hst : s.stage = .before) (r : List Byte) :
    subDone true (replyValue r) s = goOnToWrite (r.getD 10 0) s := by
  rw [subDone_of_reply (by rw [hop, hst]; rfl), if_neg (not_not.2 hop), if_pos hst, goOnToWrite]

theorem subDone_of_second_reply (hop : s.op = .writeChecked) (hst : s.stage = .after) (r : List Byte) :
    subDone true (replyValue r) s = finish statusOk (if s.before = r.getD 10 0 then 0 else 1) s := by
  rw [subDone_of_reply (by rw [hop, hst]; rfl), if_neg (not_not.2 hop), if_neg (by simp [hst])]

/-- WRITE_CHECKED at the start of its Write frame, its first counter read answered by `r`. -/
def checkedWrite (ks : List Nat) (r : List Byte) (s : State) : State := goOnToWrite (r.getD 10 0) (answered ks r s)

/-- WRITE_CHECKED at the start of its second counter read. -/
def secondRead (s : State) : State := goOnToSecondRead (sent 8 s)

/-- The first counter read, answered, leads to the Write frame. -/
theorem AttemptStart.deliver_to_checkedWrite (h : AttemptStart s) (hop : s.op = .writeChecked) (hst : s.stage = .before)
    (hn : s.attempt + fs.length ≤ s.limit) (hfs : ∀ f ∈ fs, f.Fails s.cfg) (ha : a.Brings s.cfg noise r) :
    deliver (retries s.cfg fs ++ a.events s.cfg) s = checkedWrite (fs.map FailedAttempt.sent) r s :=
  (h.deliver_answered hn hfs ha).trans (subDone_of_first_reply (s := answered (fs.map FailedAttempt.sent) r s) hop hst r)

theorem AttemptStart.checkedWrite_wire (h : AttemptStart s) (ks : List Nat) (r : List Byte) :
    (checkedWrite ks r s).wire = s.wire ++ cutCopies s.txFrame ks ++ s.txFrame := h.answered_wire ks r

theorem checkedWrite_crc (ks : List Nat) (r : List Byte) (s : State) : (checkedWrite ks r s).crc = s.crc := rfl

theorem checkedWrite_crcAcc (ks : List Nat) (r : List Byte) (s : State) :
    (checkedWrite ks r s).crcAcc = (s.crcAcc && replyCrcOk s.cfg r) := rfl

theorem checkedWrite_diag (ks : List Nat) (r : List Byte) (s : State) :
    (checkedWrite ks r s).diag = s.diag ++ diagRecords s.cfg s.curAddr r := rfl

/-- The Write frame, accepted, leads to the second counter read. -/
theorem WriteStart.deliver_to_secondRead (h : WriteStart s) (hop : s.op = .writeChecked) (hw : WholeWrite s.cfg evs) :
    deliver evs s = secondRead s := by
  have hst : s.stage = .write := stage_eq_write (hop ▸ h.kind ▸ h.inv.stage_of_op (by simp [h.phase]))
  rw [h.deliver_wholeWrite hw]
  exact subDone_true_of_write (s := sent 8 s) hop hst 0

theorem WriteStart.attemptStart_secondRead (h : WriteStart s) (hop : s.op = .writeChecked) (hw : WholeWrite s.cfg evs) :
    AttemptStart (secondRead s) :=
  ⟨h.deliver_to_secondRead hop hw ▸ inv_deliver h.inv _, rfl, rfl, rfl, rfl, rfl⟩

theorem secondRead_txFrame (s : State) : (secondRead s).txFrame = readFrame s.cfg s.cfg.ifcntAddr := rfl

theorem WriteStart.txFrame (h : WriteStart s) : s.txFrame = writeFrame s.cfg s.addr s.data := by
  rw [h.inv.frame_of_stage (by simp [h.phase]), currentFrame, h.kind]

theorem WriteStart.sent_wire (h : WriteStart s) (k : Nat) :
    (sent k s).wire = s.wire ++ (writeFrame s.cfg s.addr s.data).take k := by
  simp [sent, h.txIdx, h.txFrame]

theorem WriteStart.secondRead_wire (h : WriteStart s) :
    (secondRead s).wire = s.wire ++ writeFrame s.cfg s.addr s.data := h.sent_wire 8

/-- The Write frame, accepted, and the second counter read, answered, complete the command with the comparison. -/
theorem WriteStart.deliver_to_comparison (h : WriteStart s) (hop : s.op = .writeChecked) (hw : WholeWrite s.cfg evs)
    (hn : fs.length < s.cfg.chkTries) (hfs : ∀ f ∈ fs, f.Fails s.cfg) (ha : a.Brings s.cfg noise r) :
    deliver (evs ++ (retries s.cfg fs ++ a.events s.cfg)) s =
      finish statusOk (if s.before = r.getD 10 0 then 0 else 1)
        (answered (fs.map FailedAttempt.sent) r (secondRead s)) := by
  rw [deliver_append, h.deliver_to_secondRead hop hw]
  exact ((h.attemptStart_secondRead hop hw).deliver_answered (show 1 + fs.length ≤ s.cfg.chkTries by omega) hfs ha).trans
    (subDone_of_second_reply (s := answered (fs.map FailedAttempt.sent) r (secondRead s)) hop rfl r)

/-- The Write frame, accepted, and the second counter read, failed, complete the command with its "false". -/
theorem WriteStart.deliver_to_failedRead (h : WriteStart s) (hop : s.op = .writeChecked) (hw : WholeWrite s.cfg evs)
    (hn : fs.length + 1 = s.cfg.chkTries) (hfs : ∀ f ∈ fs, f.Fails s.cfg) (hl : last.Fails s.cfg) :
    deliver (evs ++ failedRead s.cfg fs last) s =
      finish statusOk 0 (sent last.sent (afterAttempts (fs.map FailedAttempt.sent) (secondRead s))) := by
  rw [deliver_append, h.deliver_to_secondRead hop hw]
  exact ((h.attemptStart_secondRead hop hw).deliver_failedRead (show 1 + fs.length = s.cfg.chkTries by omega) hfs hl).trans
    (congrArg (finish · 0 _) (if_pos hop))

/-- Byte 10 of two whole replies (30_encoding.md R89). -/
theorem getD_ten_eq_iff {r1 r2 : List Byte} (h1 : r1.length = 12) (h2 : r2.length = 12) :
    r1.getD 10 0 = r2.getD 10 0 ↔ r1[10]? = r2[10]? := by
  simp [h1, h2]

/-! ### The command from its word on -/

/-- The state in which an accepted WRITE_CHECKED starts its first counter read. -/
def begunChecked (a8 : Byte) (d : Word32) (s : State) : State :=
  { s with
    respValid := false, crcAcc := true, op := .writeChecked, addr := regNumber a8, data := d
    stage := .before, kind := .read, curAddr := s.cfg.ifcntAddr, limit := s.cfg.chkTries, attempt := 1
    rx := .hunt, rxBuf := [], txFrame := readFrame s.cfg s.cfg.ifcntAddr, txIdx := 0, phase := .tx, timer := 0 }

theorem react_writeChecked (h : Inv s) (hp : s.phase = .idle) (ha8 : a8.getLsbD 7 = false) :
    react (.cmd (encode (.writeChecked a8 d))) s = begunChecked a8 d s :=
  react_cmd_encode h.legal hp (congrArg (!·) ha8)

theorem attemptStart_begunChecked (h : Inv s) (hp : s.phase = .idle) (ha8 : a8.getLsbD 7 = false) :
    AttemptStart (begunChecked a8 d s) :=
  ⟨react_writeChecked h hp ha8 ▸ inv_react h _, rfl, rfl, rfl, rfl, rfl⟩

/-- The run of WRITE_CHECKED, from its first counter read on. -/
theorem after_writeChecked (h : Inv s) (hp : s.phase = .idle) (ha8 : a8.getLsbD 7 = false) (evs : List Event) :
    after (.cmd (encode (.writeChecked a8 d)) :: evs) s = .next (withEvents [] (deliver evs (begunChecked a8 d s))) := by
  rw [after_eq_deliver h.legal, deliver_cons, react_writeChecked h hp ha8]

/-- WRITE_CHECKED, accepted in the state `s`, at the start of its Write frame: `u`, after failed attempts that emitted the first
bytes of their frames, `ks` their numbers, and the answer `r` (R203). -/
structure CounterRead (a8 : Byte) (d : Word32) (ks : List Nat) (r : List Byte) (s u : State) : Prop where
  start : WriteStart u
  op : u.op = .writeChecked
  cfg : u.cfg = s.cfg
  addr : u.addr = regNumber a8
  data : u.data = d
  before : u.before = r.getD 10 0
  crc : u.crc = s.crc
  crcAcc : u.crcAcc = replyCrcOk s.cfg r
  diag : u.diag = s.diag ++ diagRecords s.cfg s.cfg.ifcntAddr r
  wire : u.wire = s.wire ++ cutCopies (readFrame s.cfg s.cfg.ifcntAddr) ks ++ readFrame s.cfg s.cfg.ifcntAddr

/-- The Write frame starts once the counter is read. -/
theorem AttemptStart.exists_counterRead (h : AttemptStart (begunChecked a8 d s)) (hn : fs.length < s.cfg.chkTries)
    (hfs : ∀ f ∈ fs, f.Fails s.cfg) (ha : a.Brings s.cfg noise r) :
    ∃ u, deliver (retries s.cfg fs ++ a.events s.cfg) (begunChecked a8 d s) = u ∧
      CounterRead a8 d (fs.map FailedAttempt.sent) r s u := by
  have hdeliver := h.deliver_to_checkedWrite rfl rfl (show 1 + fs.length ≤ s.cfg.chkTries by omega) hfs ha
  exact ⟨_, hdeliver, ⟨hdeliver ▸ inv_deliver h.inv _, rfl, rfl, rfl, rfl⟩, rfl, rfl, rfl, rfl, rfl,
    checkedWrite_crc _ r (begunChecked a8 d s), checkedWrite_crcAcc _ r (begunChecked a8 d s),
    checkedWrite_diag _ r (begunChecked a8 d s), h.checkedWrite_wire (fs.map FailedAttempt.sent) r⟩

/-! ### The failures (R203) -/

/-- WRITE_CHECKED's "false". -/
abbrev EndsFalse (t : State) : Prop := t.phase = .idle ∧ t.respValid = true ∧ t.respStatus = 0 ∧ t.respData = 0

/-- The counter cannot be read first: no Write frame is sent (92_eei_decisions.md D18). -/
theorem after_failed_first_read (h : Inv s) (hp : s.phase = .idle) (ha8 : a8.getLsbD 7 = false)
    (hm : gs.length + 1 = s.cfg.chkTries) (hgs : ∀ f ∈ gs, f.Fails s.cfg) (hl : last.Fails s.cfg) :
    ∃ t, after (.cmd (encode (.writeChecked a8 d)) :: failedRead s.cfg gs last) s = .next t ∧ EndsFalse t ∧
      t.wire = s.wire ++ cutCopies (readFrame s.cfg s.cfg.ifcntAddr) ((gs ++ [last]).map FailedAttempt.sent) := by
  have hstart := attemptStart_begunChecked (d := d) h hp ha8
  have hrun : deliver (failedRead s.cfg gs last) (begunChecked a8 d s) =
      finish statusOk 0 (sent last.sent (afterAttempts (gs.map FailedAttempt.sent) (begunChecked a8 d s))) :=
    hstart.deliver_failedRead (show 1 + gs.length = s.cfg.chkTries by omega) hgs hl
  refine ⟨_, after_writeChecked h hp ha8 _, ?_⟩
  rw [hrun, List.map_append]
  exact ⟨⟨rfl, rfl, rfl, rfl⟩, hstart.sent_afterAttempts_wire (gs.map FailedAttempt.sent) last.sent⟩

/-- The write is short: there is no second counter read. -/
theorem after_short_checked_write (h : Inv s) (hp : s.phase = .idle) (ha8 : a8.getLsbD 7 = false)
    (hn : fs.length < s.cfg.chkTries) (hfs : ∀ f ∈ fs, f.Fails s.cfg) (ha : a.Brings s.cfg noise r)
    (hw : ShortWrite s.cfg k evs) :
    ∃ t, after (.cmd (encode (.writeChecked a8 d)) :: (retries s.cfg fs ++ a.events s.cfg) ++ evs) s = .next t ∧
      EndsFalse t ∧
      t.wire = s.wire ++ (cutCopies (readFrame s.cfg s.cfg.ifcntAddr) (fs.map FailedAttempt.sent) ++
        readFrame s.cfg s.cfg.ifcntAddr) ++ (writeFrame s.cfg (a8.extractLsb' 0 7) d).take k := by
  obtain ⟨u, hfirst, hu⟩ := (attemptStart_begunChecked (d := d) h hp ha8).exists_counterRead hn hfs ha
  have hwire := hu.start.sent_wire k
  rw [hu.wire, hu.cfg, hu.addr, hu.data, List.append_assoc s.wire] at hwire
  rw [← hu.cfg] at hw
  refine ⟨_, after_writeChecked h hp ha8 (retries s.cfg fs ++ a.events s.cfg ++ evs), ?_⟩
  rw [deliver_append, hfirst, hu.start.deliver_shortWrite hw, if_pos hu.op]
  exact ⟨⟨rfl, rfl, rfl, rfl⟩, hwire⟩

/-- The counter cannot be read again. -/
theorem after_failed_second_read (h : Inv s) (hp : s.phase = .idle) (ha8 : a8.getLsbD 7 = false)
    (hn : fs.length < s.cfg.chkTries) (hfs : ∀ f ∈ fs, f.Fails s.cfg) (ha : a.Brings s.cfg noise r)
    (hw : WholeWrite s.cfg evs) (hm : gs.length + 1 = s.cfg.chkTries) (hgs : ∀ f ∈ gs, f.Fails s.cfg)
    (hl : last.Fails s.cfg) :
    ∃ t, after (.cmd (encode (.writeChecked a8 d)) :: (retries s.cfg fs ++ a.events s.cfg) ++ evs ++
        failedRead s.cfg gs last) s = .next t ∧ EndsFalse t ∧
      t.wire = s.wire ++ (cutCopies (readFrame s.cfg s.cfg.ifcntAddr) (fs.map FailedAttempt.sent) ++
        readFrame s.cfg s.cfg.ifcntAddr) ++ writeFrame s.cfg (a8.extractLsb' 0 7) d ++
        cutCopies (readFrame s.cfg s.cfg.ifcntAddr) ((gs ++ [last]).map FailedAttempt.sent) := by
  obtain ⟨u, hfirst, hu⟩ := (attemptStart_begunChecked (d := d) h hp ha8).exists_counterRead hn hfs ha
  rw [← hu.cfg] at hw hm hgs hl
  have hwire := (hu.start.attemptStart_secondRead hu.op hw).sent_afterAttempts_wire (gs.map FailedAttempt.sent) last.sent
  rw [hu.start.secondRead_wire, secondRead_txFrame, hu.wire, hu.cfg, hu.addr, hu.data, List.append_assoc s.wire] at hwire
  refine ⟨_, after_writeChecked h hp ha8 (retries s.cfg fs ++ a.events s.cfg ++ evs ++ failedRead s.cfg gs last), ?_⟩
  rw [List.append_assoc, deliver_append, hfirst, ← hu.cfg, hu.start.deliver_to_failedRead hu.op hw hm hgs hl, hu.cfg,
    List.map_append]
  exact ⟨⟨rfl, rfl, rfl, rfl⟩, hwire⟩

end Sys2Proof.Machine

namespace Sys2Proof

open Sys2Proof.Machine

/-- Settles O29: the word is accepted, and its body starts the first counter read. -/
theorem writeCheckedStartsWithTheCounter : Obligations.WriteCheckedStartsWithTheCounter := fun _ _ _ hp =>
  congrArg Host.Outcome.next (accept_idle _ hp)

/-- Settles O42: the definition, and that a difference of bytes modulo 256 is 0 only between equal bytes. -/
theorem verifiedExactlyIfTheCounterMoved : Obligations.VerifiedExactlyIfTheCounterMoved := fun b a =>
  ⟨decide_eq_true_iff, (verified_iff b a).trans ne_comm⟩

/-- Settles O39: the first counter read, the Write frame and the second counter read, one after another. -/
theorem writeCheckedComparesTheCounter : Obligations.WriteCheckedComparesTheCounter := by
  intro s a8 d fs1 fs2 answer1 answer2 write n1 r1 n2 r2 h hp ha8 hn1 hfs1 ha1 hn2 hfs2 ha2 hw counter
  obtain ⟨u, hfirst, hu⟩ := (attemptStart_begunChecked (d := d) h hp ha8).exists_counterRead hn1 hfs1 ha1
  obtain ⟨⟨-, hlen1, -⟩, -⟩ := ha1
  simp only [List.cons_append]
  refine ⟨_, after_writeChecked h hp ha8 _, ?_⟩
  rw [← hu.cfg] at hw hn2 hfs2 ha2
  have hlast := hu.start.deliver_to_comparison hu.op hw hn2 hfs2 ha2
  obtain ⟨⟨-, hlen2, -⟩, -⟩ := ha2
  have hwire := (hu.start.attemptStart_secondRead hu.op hw).answered_wire (fs2.map FailedAttempt.sent) r2
  rw [hu.start.secondRead_wire, hu.wire, hu.cfg, hu.addr, hu.data, secondRead_txFrame, hu.cfg] at hwire
  rw [List.append_assoc, List.append_assoc, deliver_append, hfirst, ← hu.cfg, hlast, hu.before, hu.cfg]
  refine ⟨rfl, rfl, rfl, ?_, ?_, ?_, ?_, hu.crc⟩
  · exact ite_congr (propext (getD_ten_eq_iff hlen1 hlen2)) (fun _ => rfl) (fun _ => rfl)
  · rw [← hu.crcAcc, ← hu.cfg]
    rfl
  · exact hwire
  · rw [← hu.diag, ← hu.cfg]
    rfl

/-- Settles O40: each of the three sub-transactions, failed, ends the command with its "false". -/
theorem writeCheckedTurnsFailureIntoFalse : Obligations.WriteCheckedTurnsFailureIntoFalse :=
  fun _ _ _ _ _ _ _ _ _ _ h hp ha8 hn hfs ha hm hgs hl =>
    ⟨after_failed_first_read h hp ha8 hm hgs hl, fun _ hw => after_short_checked_write h hp ha8 hn hfs ha hw,
      fun hw => after_failed_second_read h hp ha8 hn hfs ha hw hm hgs hl⟩

end Sys2Proof
end

section
/-! How a turn of `Settle`'s loop ends a sub-transaction or reads on (41_transaction.md R148 to R153), and how WRITE_CHECKED ends,
whatever happens on the line (43_write.md R202). -/

namespace Sys2Proof.Machine

variable {s t : State} {ev : Event}

/-! ### A turn of the loop -/

/-- The state with other contents of the RX unit and other results of the CRC check. -/
def withReception (rx : RxMode) (buf : List Byte) (diag : List DiagEntry) (acc : Bool) (s : State) : State :=
  { s with rx := rx, rxBuf := buf, diag := diag, crcAcc := acc }

/-- A turn that does not end the read sub-transaction: it keeps what it is and the copies of its frame. -/
structure ReadsOn (s t : State) : Prop where
  phase : t.phase ≠ .idle
  kind : s.kind = .read
  stage : t.stage = s.stage
  data : t.data = s.data
  copies : ∀ w n, HoldsCopies w s.txFrame n s → HoldsCopies w s.txFrame n t

/-- A turn that ends the sub-transaction, a write only with its whole frame accepted if it is to go on; or reads on. -/
abbrev EndsOrReadsOn (s t : State) : Prop :=
  (∃ ok v rx buf diag acc, t = subDone ok v (withReception rx buf diag acc s) ∧
    (s.kind = .write → ok = true → s.txIdx = s.txFrame.length)) ∨ ReadsOn s t

/-- With attempts left the next one is waited for; after the last the sub-transaction has failed (R153). -/
theorem attemptFailed_ends_or_reads_on (hp : s.phase ≠ .idle) : EndsOrReadsOn s (attemptFailed s) := by
  obtain ⟨hk, hlt, ho⟩ | ⟨-, ho⟩ := attemptFailed_cases s <;> rw [ho]
  · refine .inr ⟨nofun, hk, rfl, rfl, fun w n hc => ?_⟩
    obtain ⟨ks, hlen, hwire⟩ := hc.closed hp rfl
    exact .of_closed (ks := ks) (show ks.length + (s.limit - (s.attempt + 1) + 1) ≤ n by omega) hwire nofun
  · exact .inl ⟨false, 0, .off, [], s.diag, s.crcAcc, rfl, fun _ hok => nomatch hok⟩

/-- From one phase of an attempt to the next, its copy of the frame is over. -/
theorem readsOn_wait (hp : s.phase ≠ .idle) (hk : s.kind = .read) {p : Phase} (hp' : p = .pause ∨ p = .capture) :
    ReadsOn s { s with phase := p, timer := 0 } := by
  refine ⟨by obtain rfl | rfl := hp' <;> nofun, hk, rfl, rfl, fun w n hc => ?_⟩
  obtain ⟨ks, hlen, hwire⟩ := hc.closed hp rfl
  obtain rfl | rfl := hp'
  exacts [.of_closed hlen hwire nofun, .of_closed hlen hwire nofun]

theorem settleOnce_ends_or_reads_on (h : LoopInv s) (hs : settleOnce s = some t) : EndsOrReadsOn s t := by
  have hp : s.phase ≠ .idle := fun hp => by simp [settleOnce_idle hp] at hs
  obtain ⟨-, hi, rfl⟩ | ⟨-, -, -, rfl⟩ | ⟨hpause, -, rfl⟩ | ⟨hcapture, -, rfl⟩ | ⟨-, -, -, rfl⟩ | ⟨hb, -, rfl⟩ :=
    settleOnce_cases hs
  · unfold txDone
    split
    next hk => exact .inr (readsOn_wait hp hk (.inl rfl))
    next => exact .inl ⟨true, 0, s.rx, s.rxBuf, s.diag, s.crcAcc, rfl, fun _ _ => hi⟩
  · exact attemptFailed_ends_or_reads_on hp
  · exact .inr (readsOn_wait hp (h.waits_for_read (.inl hpause)) (.inr rfl))
  · have hk := h.waits_for_read (.inr (.inl hcapture))
    exact .inl ⟨true, _, _, _, _, _, rfl, fun hw => by simp [hk] at hw⟩
  · exact attemptFailed_ends_or_reads_on hp
  · refine .inr ⟨nofun, h.waits_for_read (.inr (.inr hb)), rfl, rfl, fun w n hc => ?_⟩
    obtain ⟨ks, hlen, hwire⟩ := hc
    have hleft : attemptsLeft (startAttempt s) = attemptsLeft s := by simp [attemptsLeft, hb]
    exact .of_closed (ks := ks) (hleft ▸ hlen) (by simpa [copySoFar, hb] using hwire) fun _ => rfl

/-! ### How WRITE_CHECKED ends (R202) -/

/-- A sub-transaction of WRITE_CHECKED ends the command with a bit, or starts the next one. -/
theorem subDone_of_writeChecked (hop : s.op = .writeChecked) (ok : Bool) (v : Word32) :
    (∃ bit, subDone ok v s = finish statusOk (zextBit bit) s) ∨ (subDone ok v s).phase ≠ .idle := by
  cases ok with
  | false => exact .inl ⟨false, (subDone_false v s).trans (congrArg (finish · 0 s) (if_pos hop))⟩
  | true =>
    have hdone : subDone true v s = subDoneWriteChecked true v s := by simp only [subDone, hop]
    rw [hdone, subDoneWriteChecked]
    cases s.stage with
    | main => exact .inl ⟨false, rfl⟩
    | before => exact .inr nofun
    | write => exact .inr nofun
    | after => exact .inl ⟨_, rfl⟩

/-- WRITE_CHECKED runs, or has ended with status OK and one bit. -/
structure EndsWithABit (s : State) : Prop where
  loop : LoopInv s
  op : s.op = .writeChecked
  ended : s.phase = .idle → s.respValid = true ∧ s.respStatus = statusOk ∧ ∃ bit, s.respData = zextBit bit

theorem EndsWithABit.settleOnce (h : EndsWithABit s) (hs : settleOnce s = some t) : EndsWithABit t := by
  have hop := (settleOnce_latched hs).1
  refine ⟨h.loop.settleOnce hs, hop.trans h.op, fun hp => ?_⟩
  obtain ⟨ok, v, rx, buf, diag, acc, rfl, -⟩ | hon := settleOnce_ends_or_reads_on h.loop hs
  · obtain ⟨bit, hbit⟩ | hbusy := subDone_of_writeChecked (s := withReception rx buf diag acc s) h.op ok v
    · rw [hbit]
      exact ⟨rfl, rfl, bit, rfl⟩
    · exact absurd hp hbusy
  · exact absurd hp hon.phase

theorem zextBit_eq (bit : Bool) : zextBit bit = 0 ∨ zextBit bit = 1 := by
  cases bit
  exacts [.inl rfl, .inr rfl]

/-- The rule of an event but Reset leaves a running command running. -/
theorem handle_busy (hp : s.phase ≠ .idle) (hev : ev ≠ .reset) : (handle ev s).phase = s.phase ∧ (handle ev s).op = s.op := by
  by_cases hcmd : ∃ w, ev = .cmd w
  · obtain ⟨w, rfl⟩ := hcmd
    rw [handle_cmd_busy w hp]
    exact ⟨rfl, rfl⟩
  · obtain ⟨rx, buf, wire, i, m, ho⟩ := handle_line_eq (fun w hw => hcmd ⟨w, hw⟩) hev s
    rw [ho]
    exact ⟨rfl, rfl⟩

theorem EndsWithABit.react (h : Inv s) (hp : s.phase ≠ .idle) (hop : s.op = .writeChecked) (hev : ev ≠ .reset) :
    EndsWithABit (react ev s) := by
  obtain ⟨hphase, hkeep⟩ := handle_busy hp hev
  exact settle_induct (fun _ _ => EndsWithABit.settleOnce)
    ⟨(LoopInv.of_inv h).handle ev, hkeep.trans hop, fun hi => absurd (hphase.symm.trans hi) hp⟩

end Sys2Proof.Machine

namespace Sys2Proof

open Sys2Proof.Machine

/-- Settles O41: a turn of the loop that ends the command ends it with a bit, and before the turns the command runs. -/
theorem writeCheckedAlwaysEndsWithABit : Obligations.WriteCheckedAlwaysEndsWithABit := by
  intro s t h hp hop hreset hs hidle
  obtain ⟨-, rfl⟩ | ⟨ev, rest, he, hstep⟩ := step_next_cases hs
  · exact absurd hidle hp
  · rw [stepEvent_eq_react] at hstep
    cases hstep
    have hev : ev ≠ .reset := fun hev => hreset rest (hev ▸ he)
    obtain ⟨hvalid, hstatus, bit, hbit⟩ := (EndsWithABit.react (h.withEvents rest) hp hop hev).ended hidle
    exact ⟨hvalid, hstatus, hbit ▸ zextBit_eq bit⟩

end Sys2Proof
end

section
/-! What a write command puts on the wire, whatever the line does (43_write.md R202, R205; 20_memory.md R69): at most one copy of its
Write frame, in WRITE_CHECKED between the copies of the counter's Read frame. -/

namespace Sys2Proof.Machine

variable {s t : State} {v w C F : List Byte} {n : Nat} {op : TransportOp} {ev : Event} {evs : List Event} {a8 : Byte}
  {d : Word32}

/-! ### Events of the line -/

/-- What the rule of every event of the line and every turn of the loop keep, events of the line keep. -/
theorem deliver_induct {P : State → Prop}
    (hhandle : ∀ s ev, (∀ w, ev ≠ .cmd w) → ev ≠ .reset → P s → P (handle ev s))
    (hturn : ∀ s t, P s → settleOnce s = some t → P t) (hevs : LineEvents evs) (h : P s) : P (deliver evs s) := by
  induction evs generalizing s with
  | nil => exact h
  | cons ev evs ih =>
    obtain ⟨⟨hreset, hcmd⟩, hrest⟩ := List.forall_mem_cons.1 hevs
    exact ih hrest (settle_induct hturn (hhandle s ev hcmd hreset h))

/-- The rule of an event of the line ends nothing. -/
theorem handle_line_kept (hcmd : ∀ w, ev ≠ .cmd w) (hreset : ev ≠ .reset) (s : State) :
    (handle ev s).phase = s.phase ∧ (handle ev s).stage = s.stage ∧ (handle ev s).cfg = s.cfg := by
  obtain ⟨rx, buf, wire, i, m, ho⟩ := handle_line_eq hcmd hreset s
  rw [ho]
  exact ⟨rfl, rfl, rfl⟩

/-- The bytes that an event of the line emits are those of the frame in TX. -/
theorem wire_handle (h : s.wire = v ++ copySoFar s) (hcmd : ∀ w, ev ≠ .cmd w) (hreset : ev ≠ .reset) :
    (handle ev s).wire = v ++ copySoFar (handle ev s) := by
  have hnone (ks : List Nat) : cutCopies [] ks = [] := by simp [cutCopies]
  have hcopies : HoldsCopies v [] (attemptsLeft s) s := ⟨[], (Nat.zero_add _).le, by simpa using h⟩
  obtain ⟨ks, -, hwire⟩ := hcopies.handle hcmd hreset
  rwa [hnone, List.append_nil] at hwire

/-- In IDLE an event of the line emits nothing. -/
theorem wire_handle_idle (hp : s.phase = .idle) (hcmd : ∀ w, ev ≠ .cmd w) (hreset : ev ≠ .reset) :
    (handle ev s).wire = s.wire := by
  have hwire := wire_handle (s := s) (v := s.wire) (by simp [copySoFar, hp]) hcmd hreset
  simpa [copySoFar, (handle_line_kept hcmd hreset s).1, hp] using hwire

/-! ### A write command that runs -/

/-- A write command with the Write frame `F` that runs, or has run. -/
structure WriteCommandRun (op : TransportOp) (F : List Byte) (s : State) : Prop where
  loop : LoopInv s
  op : s.op = op
  frame : writeFrame s.cfg s.addr s.data = F

theorem LoopInv.settleOnce_data (h : LoopInv s) (hs : Machine.settleOnce s = some t) : t.data = s.data := by
  obtain ⟨ok, v, rx, buf, diag, acc, rfl, -⟩ | hon := settleOnce_ends_or_reads_on h hs
  · exact subDone_data ..
  · exact hon.data

theorem WriteCommandRun.settleOnce (h : WriteCommandRun op F s) (hs : settleOnce s = some t) : WriteCommandRun op F t := by
  obtain ⟨hop, haddr⟩ := settleOnce_latched hs
  exact ⟨h.loop.settleOnce hs, hop.trans h.op, by rw [settleOnce_cfg hs, haddr, h.loop.settleOnce_data hs, h.frame]⟩

theorem WriteCommandRun.handle (h : WriteCommandRun op F s) (hcmd : ∀ w, ev ≠ .cmd w) (hreset : ev ≠ .reset) :
    WriteCommandRun op F (handle ev s) := by
  have hloop := h.loop.handle ev
  obtain ⟨rx, buf, wire, i, m, ho⟩ := handle_line_eq hcmd hreset s
  rw [ho] at hloop ⊢
  exact ⟨hloop, h.op, h.frame⟩

/-- While it writes, the bytes accepted are the first of its Write frame. -/
theorem WriteCommandRun.copySoFar_eq (h : WriteCommandRun op F s) (hp : s.phase ≠ .idle) (hk : s.kind = .write) :
    s.txFrame = F ∧ copySoFar s = F.take s.txIdx ∧ s.txIdx ≤ 8 := by
  have htx : s.phase = .tx := by
    have hwaits := h.loop.waits_for_read
    cases hph : s.phase <;> simp_all
  have hframe : s.txFrame = F := by rw [(h.loop.running hp).frame, currentFrame, hk, ← h.frame]
  have hlen : F.length = 8 := h.frame ▸ writeFrame_length ..
  exact ⟨hframe, by rw [copySoFar, if_pos htx, hframe], hlen ▸ hframe ▸ h.loop.tx_bound htx⟩

/-! ### WRITE_REG (R200) -/

/-- WRITE_REG since the wire held `w`: it sends its frame, or has sent the first bytes of it. -/
structure WriteRegRun (w F : List Byte) (s : State) : Prop where
  run : WriteCommandRun .writeReg F s
  sending : s.phase ≠ .idle → s.wire = w ++ copySoFar s
  ended : s.phase = .idle → ∃ k, k ≤ 8 ∧ s.wire = w ++ F.take k

/-- WRITE_REG only writes (10_state.md R25). -/
theorem WriteRegRun.kind (h : WriteRegRun w F s) (hp : s.phase ≠ .idle) : s.kind = .write := by
  have hsk := (h.run.loop.running hp).stage_kind
  rw [h.run.op] at hsk
  cases hk : s.kind <;> simp_all [stageKindOk]

theorem WriteRegRun.exists_take (h : WriteRegRun w F s) : ∃ k, k ≤ 8 ∧ s.wire = w ++ F.take k := by
  by_cases hp : s.phase = .idle
  · exact h.ended hp
  · obtain ⟨-, hcopy, hle⟩ := h.run.copySoFar_eq hp (h.kind hp)
    exact ⟨_, hle, hcopy ▸ h.sending hp⟩

theorem WriteRegRun.handle (h : WriteRegRun w F s) (hcmd : ∀ w, ev ≠ .cmd w) (hreset : ev ≠ .reset) :
    WriteRegRun w F (handle ev s) := by
  obtain ⟨hphase, -⟩ := handle_line_kept hcmd hreset s
  refine ⟨h.run.handle hcmd hreset, fun hp => wire_handle (h.sending (hphase ▸ hp)) hcmd hreset, fun hp => ?_⟩
  rw [hphase] at hp
  rw [wire_handle_idle hp hcmd hreset]
  exact h.ended hp

/-- The end of its one sub-transaction is its end (R201). -/
theorem WriteRegRun.settleOnce (h : WriteRegRun w F s) (hs : settleOnce s = some t) : WriteRegRun w F t := by
  have hp : s.phase ≠ .idle := fun hp => by simp [settleOnce_idle hp] at hs
  have hidle : t.phase = .idle := by
    obtain ⟨ok, v, rx, buf, diag, acc, rfl, -⟩ | hon := settleOnce_ends_or_reads_on h.run.loop hs
    · obtain ⟨st, d, -, ho⟩ | ⟨hop, -⟩ | ⟨hop, -⟩ := subDone_cases ok v (withReception rx buf diag acc s)
      · rw [ho]; rfl
      · cases h.run.op.symm.trans hop
      · cases h.run.op.symm.trans hop
    · cases (h.kind hp).symm.trans hon.kind
  refine ⟨h.run.settleOnce hs, fun hbusy => absurd hidle hbusy, fun _ => ?_⟩
  rw [settleOnce_wire hs]
  exact h.exists_take

/-- A WRITE_REG that starts has emitted nothing. -/
theorem writeRegRun_begunWrite (h : Inv s) (hp : s.phase = .idle) (ha : a8.getLsbD 7 = false) :
    WriteRegRun s.wire (writeFrame s.cfg (a8.extractLsb' 0 7) d) (begunWrite a8 d s) :=
  ⟨⟨.of_inv (writeStart_begunWrite h hp ha).inv, rfl, rfl⟩, fun _ => (List.append_nil _).symm, nofun⟩

/-! ### WRITE_CHECKED (R202) -/

/-- After `w` a wire holds at most `n` copies of the frame `C`, the first bytes of `F`, and if they are its eight at most `n`
more copies of `C`. -/
def CheckedWire (w C F : List Byte) (n : Nat) (wire : List Byte) : Prop :=
  ∃ (ks1 ks2 : List Nat) (k : Nat), ks1.length ≤ n ∧ ks2.length ≤ n ∧ k ≤ 8 ∧ (k < 8 → ks2 = []) ∧
    wire = w ++ cutCopies C ks1 ++ F.take k ++ cutCopies C ks2

/-- What the wire holds in each stage of WRITE_CHECKED, and after it. -/
inductive CheckedOrder (w C F : List Byte) (n : Nat) (s : State) : Prop where
  | before (hst : s.stage = .before) (hp : s.phase ≠ .idle) (h : HoldsCopies w C n s)
  | write (hst : s.stage = .write) (hp : s.phase ≠ .idle) (ks : List Nat) (hlen : ks.length ≤ n)
    (hwire : s.wire = w ++ cutCopies C ks ++ copySoFar s)
  | after (hst : s.stage = .after) (hp : s.phase ≠ .idle) (ks : List Nat) (hlen : ks.length ≤ n)
    (h : HoldsCopies (w ++ cutCopies C ks ++ F) C n s)
  | ended (hp : s.phase = .idle) (h : CheckedWire w C F n s.wire)

/-- WRITE_CHECKED since the wire held `w`, with up to `n` copies of the counter's Read frame `C` in each of its reads. -/
structure CheckedRun (w C F : List Byte) (n : Nat) (s : State) : Prop where
  run : WriteCommandRun .writeChecked F s
  counter : readFrame s.cfg s.cfg.ifcntAddr = C
  tries : s.cfg.chkTries = n
  order : CheckedOrder w C F n s

/-- WRITE_CHECKED writes in its stage WRITE and reads in the others (10_state.md R24). -/
theorem kind_eq_write_iff {st : Stage} {k : Kind} (h : stageKindOk .writeChecked st k = true) :
    k = .write ↔ st = .write := by
  cases st <;> cases k <;> simp_all [stageKindOk]

theorem CheckedRun.kind_eq_write_iff (h : CheckedRun w C F n s) (hp : s.phase ≠ .idle) :
    s.kind = .write ↔ s.stage = .write :=
  Machine.kind_eq_write_iff (h.run.op ▸ (h.run.loop.running hp).stage_kind)

theorem CheckedRun.kind_eq_read (h : CheckedRun w C F n s) (hp : s.phase ≠ .idle) (hst : s.stage ≠ .write) :
    s.kind = .read := by
  cases hk : s.kind with
  | read => rfl
  | write => exact absurd ((h.kind_eq_write_iff hp).1 hk) hst

/-- While it reads, it reads the counter (10_state.md R28). -/
theorem CheckedRun.txFrame (h : CheckedRun w C F n s) (hp : s.phase ≠ .idle) (hk : s.kind = .read) : s.txFrame = C := by
  have hrun := h.run.loop.running hp
  obtain ⟨-, haddr⟩ := hrun.target hk
  rw [h.run.op] at haddr
  rw [hrun.frame, currentFrame, hk, ← h.counter, haddr, readAddress]

/-- At every time the wire holds the frames in their order. -/
theorem CheckedRun.checkedWire (h : CheckedRun w C F n s) : CheckedWire w C F n s.wire := by
  cases h.order with
  | before hst hp hcopies =>
    have hframe := h.txFrame hp (h.kind_eq_read hp (by simp [hst]))
    obtain ⟨ks, hlen, hwire⟩ := hcopies.closed hp hframe
    exact ⟨ks, [], 0, by omega, Nat.zero_le _, Nat.zero_le _, fun _ => rfl, by simpa using hwire⟩
  | write hst hp ks hlen hwire =>
    obtain ⟨-, hcopy, hle⟩ := h.run.copySoFar_eq hp ((h.kind_eq_write_iff hp).2 hst)
    exact ⟨ks, [], s.txIdx, hlen, Nat.zero_le _, hle, fun _ => rfl, by rw [hwire, hcopy]; simp⟩
  | after hst hp ks hlen hcopies =>
    have hframe := h.txFrame hp (h.kind_eq_read hp (by simp [hst]))
    have hlen8 : F.length = 8 := h.run.frame ▸ writeFrame_length ..
    obtain ⟨ks2, hlen2, hwire⟩ := hcopies.closed hp hframe
    exact ⟨ks, ks2, 8, hlen, by omega, le_rfl, fun hlt => absurd hlt (Nat.lt_irrefl 8),
      by rw [hwire, List.take_of_length_le hlen8.le]⟩
  | ended hp hwire => exact hwire

theorem CheckedRun.handle (h : CheckedRun w C F n s) (hcmd : ∀ w, ev ≠ .cmd w) (hreset : ev ≠ .reset) :
    CheckedRun w C F n (handle ev s) := by
  obtain ⟨hphase, hstage, hcfg⟩ := handle_line_kept hcmd hreset s
  refine ⟨h.run.handle hcmd hreset, hcfg ▸ h.counter, hcfg ▸ h.tries, ?_⟩
  cases h.order with
  | before hst hp hcopies => exact .before (hstage.trans hst) (hphase ▸ hp) (hcopies.handle hcmd hreset)
  | write hst hp ks hlen hwire => exact .write (hstage.trans hst) (hphase ▸ hp) ks hlen (wire_handle hwire hcmd hreset)
  | after hst hp ks hlen hcopies => exact .after (hstage.trans hst) (hphase ▸ hp) ks hlen (hcopies.handle hcmd hreset)
  | ended hp hwire => exact .ended (hphase.trans hp) (by rwa [wire_handle_idle hp hcmd hreset])

/-- A turn that reads on stays in its stage. -/
theorem CheckedRun.order_of_readsOn (h : CheckedRun w C F n s) (hp : s.phase ≠ .idle) (hon : ReadsOn s t) :
    CheckedOrder w C F n t := by
  have hframe := h.txFrame hp hon.kind
  have hcopies := hframe ▸ hon.copies
  cases h.order with
  | before hst hp hc => exact .before (hon.stage.trans hst) hon.phase (hcopies _ _ hc)
  | write hst hp ks hlen hwire => cases hon.kind.symm.trans ((h.kind_eq_write_iff hp).2 hst)
  | after hst hp ks hlen hc => exact .after (hon.stage.trans hst) hon.phase ks hlen (hcopies _ _ hc)
  | ended hidle => exact absurd hidle hp

/-- The counter read, the Write frame starts after its copies. -/
theorem CheckedRun.order_startWrite (h : CheckedRun w C F n s) (hp : s.phase ≠ .idle) (hst : s.stage = .before)
    (htx : t.phase = .tx) (hstage : t.stage = .write) (hi : t.txIdx = 0) (hwire : t.wire = s.wire) :
    CheckedOrder w C F n t := by
  have hframe := h.txFrame hp (h.kind_eq_read hp (by simp [hst]))
  cases h.order with
  | before _ _ hcopies =>
    obtain ⟨ks, hlen, hs⟩ := hcopies.closed hp hframe
    exact .write hstage (by simp [htx]) ks (by omega) (by rw [hwire, hs, copySoFar, if_pos htx, hi]; simp)
  | write hst' => cases hst.symm.trans hst'
  | after hst' => cases hst.symm.trans hst'
  | ended hidle => exact absurd hidle hp

/-- The whole Write frame sent, the second counter read starts after it (92_eei_decisions.md D18). -/
theorem CheckedRun.order_startRead (h : CheckedRun w C F n s) (hp : s.phase ≠ .idle) (hst : s.stage = .write)
    (hi : s.txIdx = s.txFrame.length) (htx : t.phase = .tx) (hstage : t.stage = .after) (hit : t.txIdx = 0)
    (hleft : attemptsLeft t ≤ n) (hwire : t.wire = s.wire) : CheckedOrder w C F n t := by
  obtain ⟨hframe, hcopy, -⟩ := h.run.copySoFar_eq hp ((h.kind_eq_write_iff hp).2 hst)
  rw [hi, hframe, List.take_length] at hcopy
  cases h.order with
  | before hst' => cases hst.symm.trans hst'
  | write _ _ ks hlen hs =>
    refine .after hstage (by simp [htx]) ks hlen (.of_closed (ks := []) (by simpa using hleft) ?_ fun _ => hit)
    rw [hwire, hs, hcopy, cutCopies_nil, List.append_nil]
  | after hst' => cases hst.symm.trans hst'
  | ended hidle => exact absurd hidle hp

theorem CheckedRun.order_settleOnce (h : CheckedRun w C F n s) (hs : settleOnce s = some t) : CheckedOrder w C F n t := by
  have hp : s.phase ≠ .idle := fun hp => by simp [settleOnce_idle hp] at hs
  obtain ⟨-, ⟨hchk, -⟩, -⟩ := Config.bounds_of_legal h.run.loop.legal
  obtain ⟨ok, v, rx, buf, diag, acc, rfl, hi⟩ | hon := settleOnce_ends_or_reads_on h.run.loop hs
  · obtain ⟨st, d, -, ho⟩ | ⟨-, hst, -, ho⟩ | ⟨-, hst, hok, ho⟩ := subDone_cases ok v (withReception rx buf diag acc s) <;>
      rw [ho]
    · exact .ended rfl h.checkedWire
    · exact h.order_startWrite hp hst rfl rfl rfl rfl
    · have hleft : s.cfg.chkTries - 1 + 1 ≤ n := by rw [← h.tries]; omega
      exact h.order_startRead hp hst (hi ((h.kind_eq_write_iff hp).2 hst) hok) rfl rfl rfl hleft rfl
  · exact h.order_of_readsOn hp hon

theorem CheckedRun.settleOnce (h : CheckedRun w C F n s) (hs : settleOnce s = some t) : CheckedRun w C F n t :=
  ⟨h.run.settleOnce hs, settleOnce_cfg hs ▸ h.counter, settleOnce_cfg hs ▸ h.tries, h.order_settleOnce hs⟩

/-- A WRITE_CHECKED that starts has emitted nothing and has its attempts left. -/
theorem checkedRun_begunChecked (h : Inv s) (hp : s.phase = .idle) (ha : a8.getLsbD 7 = false) :
    CheckedRun s.wire (readFrame s.cfg s.cfg.ifcntAddr) (writeFrame s.cfg (a8.extractLsb' 0 7) d) s.cfg.chkTries
      (begunChecked a8 d s) := by
  obtain ⟨-, ⟨hchk, -⟩, -⟩ := Config.bounds_of_legal h.legal
  exact ⟨⟨.of_inv (attemptStart_begunChecked h hp ha).inv, rfl, rfl⟩, rfl, rfl, .before rfl nofun
    (.of_closed (ks := []) (show 0 + (s.cfg.chkTries - 1 + 1) ≤ s.cfg.chkTries by omega) (List.append_nil _).symm
      fun _ => rfl)⟩

end Sys2Proof.Machine

namespace Sys2Proof

open Sys2Proof.Machine

/-- Settles O45: every event of the line keeps the frames on the wire in their order. -/
theorem writeFrameIsSentAtMostOnce : Obligations.WriteFrameIsSentAtMostOnce := by
  refine fun s t a8 d evs h hp ha hevs => ⟨fun ht => ?_, fun ht => ?_⟩
  · rw [after_writeReg h hp ha] at ht
    cases ht
    exact (deliver_induct (fun _ _ hcmd hreset h => WriteRegRun.handle h hcmd hreset) (fun _ _ => WriteRegRun.settleOnce) hevs
      (writeRegRun_begunWrite h hp ha)).exists_take
  · rw [after_writeChecked h hp ha] at ht
    cases ht
    exact (deliver_induct (fun _ _ hcmd hreset h => CheckedRun.handle h hcmd hreset) (fun _ _ => CheckedRun.settleOnce) hevs
      (checkedRun_begunChecked h hp ha)).checkedWire

end Sys2Proof
end

section
/-! The IDLE block (60_exceptions.md R232, R244): what an illegal word does to it, and that events of the line do nothing. -/

namespace Sys2Proof.Machine

variable {s : State} {w : CmdWord} {ev : Event}

/-! ### Events of the line (R244) -/

/-- In IDLE the RX unit is off, no byte is offered and no timer runs, so the rule of an event of the line changes nothing. -/
theorem Inv.handle_line_of_idle (h : Inv s) (hp : s.phase = .idle) (hcmd : ∀ w, ev ≠ .cmd w) (hreset : ev ≠ .reset) :
    handle ev s = s := by
  cases ev with
  | reset => exact absurd rfl hreset
  | cmd w => exact absurd rfl (hcmd w)
  | rxByte b =>
    obtain ⟨hrx, -⟩ := h.idle_clear hp
    simp only [handle, onRx, hrx]
  | txAccept => exact onTxAccept_of_not_txValid (by simp [txValid, hp])
  | tick => exact if_pos hp

theorem Inv.react_line_of_idle (h : Inv s) (hp : s.phase = .idle) (hcmd : ∀ w, ev ≠ .cmd w) (hreset : ev ≠ .reset) :
    react ev s = s := by
  rw [react, h.handle_line_of_idle hp hcmd hreset]
  exact settle_of_quiescent (settleOnce_idle hp)

/-! ### A word presented (R232) -/

theorem react_cmd_of_illegalBits (hl : s.cfg.legal = true) (hp : s.phase = .idle) (hw : IllegalBits w) :
    react (.cmd w) s = raiseIllegalCommand (openCommand s) := by
  obtain ⟨why, hd⟩ : ∃ why, decode w = .illegal why := by
    rw [exists_decode_eq_illegal_iff, exists_decode_eq_cmd_iff, not_not]
    exact hw
  rw [react, settle_handle_cmd_idle hl w hp, hd]
  rfl

/-- In IDLE there is nothing that the completion of an illegal word has to clear (10_state.md R41). -/
theorem Inv.raiseIllegalCommand_openCommand (h : Inv s) (hp : s.phase = .idle) :
    raiseIllegalCommand (openCommand s) =
      { s with crcAcc := true, respValid := true, respStatus := 2, respData := 0, respCrcOk := true } := by
  obtain ⟨hrx, hframe, hidx, htimer⟩ := h.idle_clear hp
  have hbuf := h.buf_empty (.inl hrx)
  simp [raiseIllegalCommand, finish, openCommand, statusIllegalCommand, hp, hrx, hframe, hidx, htimer, hbuf]

/-- An accepted command leaves status OK, or no response while it runs. -/
theorem acceptBody_cmd_response (c : Config) (i : Instr) (hv : s.respValid = false) :
    (acceptBody c (.cmd i) s).respStatus = statusOk ∨ (acceptBody c (.cmd i) s).respValid = false := by
  cases i with
  | crcSeed a8 => exact .inl rfl
  | crcUpdate a8 => exact .inl rfl
  | readReg a8 => exact .inr hv
  | readInt a8 => exact .inr hv
  | readU32 a8 => exact .inr hv
  | writeReg a8 d32 => exact .inr hv
  | writeChecked a8 d32 => exact .inr hv

/-- A legal word presented in IDLE does not raise IllegalCommand. -/
theorem react_cmd_of_not_illegalBits (hl : s.cfg.legal = true) (hp : s.phase = .idle) (hw : ¬ IllegalBits w) :
    ¬ ((react (.cmd w) s).respValid = true ∧ (react (.cmd w) s).respStatus = 2) := by
  obtain ⟨i, hd⟩ := (exists_decode_eq_cmd_iff w).2 hw
  rw [react, settle_handle_cmd_idle hl w hp, hd]
  rintro ⟨hvalid, hstatus⟩
  obtain hok | hopen := acceptBody_cmd_response (s := openCommand s) s.cfg i rfl
  · rw [hok] at hstatus
    exact absurd hstatus (by decide)
  · simp [hopen] at hvalid

end Sys2Proof.Machine

namespace Sys2Proof

open Sys2Proof.Machine

/-- Settles O10: the decoder refuses exactly the words of R85, and a command accepted leaves status OK or no response. -/
theorem illegalWordCompletesAtOnce : Obligations.IllegalWordCompletesAtOnce := by
  intro s w rest hs hp he
  have h := hs.withEvents rest
  rw [step_eq_react hs.legal he]
  refine ⟨fun hw => ?_, fun hw => ⟨_, rfl, react_cmd_of_not_illegalBits h.legal hp hw⟩⟩
  rw [react_cmd_of_illegalBits h.legal hp hw, h.raiseIllegalCommand_openCommand hp]
  rfl

/-- Settles O50: the rule of the event changes nothing, and nothing is due in IDLE. -/
theorem idleBlockIgnoresTheLine : Obligations.IdleBlockIgnoresTheLine := by
  intro s ev rest hs hp he hev
  have hline : (∀ w, ev ≠ .cmd w) ∧ ev ≠ .reset := by obtain rfl | rfl | ⟨b, rfl⟩ := hev <;> simp
  rw [step_eq_react hs.legal he, (hs.withEvents rest).react_line_of_idle hp hline.1 hline.2]
  rfl

end Sys2Proof
end

section
/-! A read command none of whose attempts is answered (60_exceptions.md R231; 41_transaction.md R153; 42_read.md R180). -/

namespace Sys2Proof.Machine

variable {s : State} {i : Instr} {op : TransportOp} {a8 : Byte} {n : Nat}

/-- A read command all of whose attempts fail completes with TransportTimeout. -/
theorem ReadCommand.exists_after_failedRead (hi : ReadCommand s.cfg i op a8 n) (h : Inv s) (hp : s.phase = .idle)
    {fs : List FailedAttempt} {last : FailedAttempt} (hn : fs.length + 1 = n) (hfs : ∀ f ∈ fs, f.Fails s.cfg)
    (hl : last.Fails s.cfg) :
    ∃ t, after (.cmd (encode i) :: failedRead s.cfg fs last) s = .next t ∧
      t.phase = .idle ∧ t.respValid = true ∧ t.respStatus = 1 ∧ t.respData = 0 ∧ t.respCrcOk = true ∧
      t.wire = s.wire ++ cutCopies (readFrame s.cfg (a8.extractLsb' 0 7)) ((fs ++ [last]).map FailedAttempt.sent) ∧
      t.diag = s.diag ∧ t.crc = s.crc := by
  have hstart := hi.attemptStart h hp
  have hrun := hstart.deliver_failedRead (show 1 + fs.length = n by omega) hfs hl
  rw [if_neg (by exact hi.op_ne_writeChecked)] at hrun
  have hdeliver : deliver (failedRead s.cfg fs last) (begun op a8 n s) = _ := hrun
  refine ⟨_, hi.after_eq h hp _, ?_⟩
  rw [hdeliver, List.map_append]
  exact ⟨rfl, rfl, rfl, rfl, rfl, hstart.sent_afterAttempts_wire (fs.map FailedAttempt.sent) last.sent, rfl, rfl⟩

end Sys2Proof.Machine

namespace Sys2Proof

open Sys2Proof.Machine

/-- Settles O34: each of the three read commands starts its attempts, and none of them is answered. -/
theorem unansweredReadTimesOut : Obligations.UnansweredReadTimesOut := by
  rintro s a8 i n fs last h hp ha (⟨rfl, rfl⟩ | ⟨rfl, rfl⟩ | ⟨rfl, rfl⟩) hn hfs hl
  · exact (readCommand_readReg s.cfg ha).exists_after_failedRead h hp hn hfs hl
  · exact (readCommand_readInt s.cfg ha).exists_after_failedRead h hp hn hfs hl
  · exact (readCommand_readU32 s.cfg ha).exists_after_failedRead h hp hn hfs hl

end Sys2Proof
end

section
/-! What completes in the clock of its deadline (60_exceptions.md R235; 41_transaction.md R141, R148): the clock's event ends the
frame or the reply, and the clock's tick acts on the state after it. -/

namespace Sys2Proof.Machine

variable {s : State} {b : Byte}

/-! ### A clock with an event and a tick (R141) -/

theorem after_singleton (hl : s.cfg.legal = true) (ev : Event) : after [ev] s = .next (withEvents [] (react ev s)) :=
  after_eq_deliver hl [ev]

theorem after_event_tick (hl : s.cfg.legal = true) (ev : Event) :
    after [ev, .tick] s = after [.tick] (withEvents [] (react ev s)) :=
  after_append [.tick] hl (after_singleton hl ev)

/-- Where the event ended the command, the tick of its clock does nothing (R244). -/
theorem Inv.after_event_tick_of_idle (h : Inv s) (ev : Event) (hp : (react ev s).phase = .idle) :
    after [ev, .tick] s = .next (Machine.withEvents [] (react ev s)) := by
  have hreact := inv_react h ev
  rw [after_event_tick h.legal, after_withEvents, after_singleton hreact.legal,
    hreact.react_line_of_idle hp (by simp) (by simp)]

/-! ### A reply (R152) -/

/-- `u` is where the capture of the reply `r` takes the read sub-transaction of `s`: a read command to its end, WRITE_CHECKED to
its Write frame or, from its second counter read, to its end (R180, R203). -/
structure EndsWithReply (r : List Byte) (s u : State) : Prop where
  of_read : s.op ≠ .writeChecked → u.phase = .idle ∧ u.respStatus = 0 ∧ u.respData = replyValue r
  of_first_count : s.op = .writeChecked → s.stage = .before →
    u.phase = .tx ∧ u.stage = .write ∧ u.before = r.getD 10 0 ∧
    u.txFrame = writeFrame s.cfg s.addr s.data ∧ u.txIdx = 0 ∧ u.timer = 0
  of_second_count : s.op = .writeChecked → s.stage = .after →
    u.phase = .idle ∧ u.respStatus = 0 ∧ u.respData = (if s.before = r.getD 10 0 then 0 else 1)

theorem endsWithReply_settle (hl : s.cfg.legal = true) (hsk : stageKindOk s.op s.stage .read = true)
    (hdue : CaptureDue s) : EndsWithReply s.rxBuf s (settle s) := by
  rw [settle_captureDue_eq hl hsk hdue]
  refine ⟨fun hop => ?_, fun hop hst => ?_, fun hop hst => ?_⟩
  · rw [if_pos hop]
    exact ⟨rfl, rfl, rfl⟩
  · rw [if_neg (not_not.2 hop), if_pos hst]
    exact ⟨rfl, rfl, rfl, rfl, rfl, rfl⟩
  · rw [if_neg (not_not.2 hop), if_neg (by simp [hst])]
    exact ⟨rfl, rfl, rfl⟩

theorem Inv.endsWithReply_rxByte (h : Inv s) (hp : s.phase = .capture) (hlen : s.rxBuf.length = 11) (b : Byte) :
    EndsWithReply (s.rxBuf ++ [b]) s (react (.rxByte b) s) := by
  have hsk : stageKindOk s.op s.stage .read = true :=
    h.waits_for_read (.inr (.inl hp)) ▸ h.stage_of_op (by simp [hp])
  have hdue := (captureDue_onRx_iff h b).2 ⟨hp, hlen⟩
  rw [onRx_of_length_eq_eleven h hlen] at hdue
  rw [react, handle, onRx_of_length_eq_eleven h hlen]
  have hends := endsWithReply_settle (s := { s with rxBuf := s.rxBuf ++ [b], rx := .full }) h.legal hsk hdue
  exact ⟨hends.of_read, hends.of_first_count, hends.of_second_count⟩

/-- Without a pause, a reply that came whole in TX is captured when the Read frame is sent (92_eei_decisions.md D12). -/
theorem Inv.endsWithReply_txAccept (h : Inv s) (hp : s.phase = .tx) (hk : s.kind = .read) (hrx : s.rx = .full)
    (hz : s.cfg.tPause = 0) (hb : s.txFrame[s.txIdx]? = some b) (hi : s.txIdx + 1 = s.txFrame.length) :
    EndsWithReply s.rxBuf s (react .txAccept s) := by
  have hsk : stageKindOk s.op s.stage .read = true := hk ▸ h.stage_of_op (by simp [hp])
  have hdue : CaptureDue (handle .txAccept s) := (captureDue_onTxAccept_iff h).2 ⟨hp, hrx, hz, hi⟩
  rw [handle_txAccept hp hb] at hdue
  rw [react, handle_txAccept hp hb]
  have hends := endsWithReply_settle (s := emit b s) h.legal hsk hdue
  exact ⟨hends.of_read, hends.of_first_count, hends.of_second_count⟩

/-! ### A frame (R150) -/

theorem react_txAccept_wire (hp : s.phase = .tx) (hb : s.txFrame[s.txIdx]? = some b) :
    (react .txAccept s).wire = s.wire ++ [b] := by
  rw [react, settle_wire, handle_txAccept hp hb, emit]

/-- Where there is a pause, it follows the last byte of a Read frame, even with a whole reply in the RX unit (R150). -/
theorem react_txAccept_last_opens_pause (hl : s.cfg.legal = true) (hp : s.phase = .tx) (hk : s.kind = .read)
    (hpos : 0 < s.cfg.tPause) (hb : s.txFrame[s.txIdx]? = some b) (hi : s.txIdx + 1 = s.txFrame.length) :
    react .txAccept s = { emit b s with phase := .pause, timer := 0 } := by
  have hdone : txDone (emit b s) = { emit b s with phase := .pause, timer := 0 } := by simp only [txDone, emit, hk]
  rw [react_txAccept_last hl hp hb hi, hdone]
  exact settle_of_quiescent (settleOnce_eq_none_of_lt (s := { emit b s with phase := .pause, timer := 0 }) nofun nofun hpos)

theorem kind_of_writeReg {st : Stage} {k : Kind} (h : stageKindOk .writeReg st k = true) : k = .write := by
  cases k <;> simp_all [stageKindOk]

end Sys2Proof.Machine

namespace Sys2Proof

open Sys2Proof.Machine

/-- Settles O53: the event of the clock ends the frame or the reply by itself, and only then does the clock's tick act. -/
theorem completionBeatsTheDeadline : Obligations.CompletionBeatsTheDeadline := by
  refine fun s h => ⟨fun b hp hlen _ => ?_, fun hp hi _ => ?_⟩
  · obtain ⟨hread, hfirst, hsecond⟩ := h.endsWithReply_rxByte hp hlen b
    exact ⟨_, after_singleton h.legal _, after_event_tick h.legal _, h.after_event_tick_of_idle _, hread, hfirst, hsecond⟩
  · have hbusy : s.phase ≠ .idle := by simp [hp]
    obtain ⟨b, hb⟩ : ∃ b, s.txFrame[s.txIdx]? = some b := ⟨_, List.getElem?_eq_getElem (h.tx_unfinished hp)⟩
    have hreply (hk : s.kind = .read) (hz : s.cfg.tPause = 0) (hrx : s.rx = .full) :=
      h.endsWithReply_txAccept hp hk hrx hz hb hi
    have hwrite (hk : s.kind = .write) : react .txAccept s = subDone true 0 (emit b s) :=
      h.react_txAccept_last_of_write hp hk hb (hi.trans (h.txFrame_length_of_write hbusy hk))
    refine ⟨_, after_singleton h.legal _, after_event_tick h.legal _, h.after_event_tick_of_idle _,
      ⟨b, hb, react_txAccept_wire hp hb⟩, fun hk hpos => ?_, fun hk hz hrx => ?_,
      fun hk hz hrx => (hreply hk hz hrx).of_read, fun hk hz hrx hop hst => ?_,
      fun hk hz hrx => (hreply hk hz hrx).of_second_count, fun hop => ?_, fun hop hk => ?_⟩
    · rw [react_txAccept_last_opens_pause h.legal hp hk hpos hb hi]
      exact ⟨rfl, rfl, rfl, rfl⟩
    · rw [h.react_txAccept_last_of_read hp hk hrx hb hi, if_pos hz]
      exact ⟨rfl, rfl, rfl, rfl⟩
    · obtain ⟨hphase, hstage, hbefore, -⟩ := (hreply hk hz hrx).of_first_count hop hst
      exact ⟨hphase, hstage, hbefore⟩
    · have hk : s.kind = .write := kind_of_writeReg (hop ▸ h.stage_of_op hbusy)
      rw [hwrite hk, subDone_true_of_writeReg (s := emit b s) hop]
      exact ⟨rfl, rfl⟩
    · have hst : s.stage = .write := stage_eq_write (hop ▸ hk ▸ h.stage_of_op hbusy)
      rw [hwrite hk, subDone_true_of_write (s := emit b s) hop hst]
      exact ⟨rfl, rfl, rfl, rfl, rfl⟩

end Sys2Proof
end

section
/-! Reset and the reads of the host (70_reset_and_hazards.md R260, R261, R265, R269; 10_state.md R36): what Reset leaves, when
`resp_data` can be read, and where the RX unit is off. -/

namespace Sys2Proof.Machine

variable {s : State}

/-! ### The host's read (R265) -/

theorem hostReadRespData_of_response (hv : s.respValid = true) :
    hostReadRespData s = .ok s.respData ∧ (statusView s).respData = some s.respData :=
  ⟨if_pos hv, if_pos hv⟩

theorem hostReadRespData_of_no_response (hv : s.respValid = false) :
    hostReadRespData s = .error .responseNotValid ∧ (statusView s).respData = none :=
  ⟨if_neg (by simp [hv]), if_neg (by simp [hv])⟩

/-! ### The RX unit off (R145, R269) -/

theorem kind_cases (s : State) : s.kind = .read ∨ s.kind = .write := by
  cases s.kind <;> simp

/-- The unit is armed in TX, PAUSE and CAPTURE of a read, and only a read comes to PAUSE or CAPTURE (R140). -/
theorem Inv.rx_eq_off_iff (h : Inv s) :
    s.rx = .off ↔ s.phase = .idle ∨ s.phase = .backoff ∨ (s.phase = .tx ∧ s.kind = .write) := by
  constructor
  · intro hoff
    have hread (hk : s.kind = .read) : ¬ Listens s.phase := fun hp => h.stays_armed hk hp hoff
    cases hp : s.phase with
    | idle => exact .inl rfl
    | tx =>
      obtain hk | hk := kind_cases s
      · exact absurd (.inl hp) (hread hk)
      · exact .inr (.inr ⟨rfl, hk⟩)
    | pause => exact absurd (.inr (.inl hp)) (hread (h.waits_for_read (.inl hp)))
    | capture => exact absurd (.inr (.inr hp)) (hread (h.waits_for_read (.inr (.inl hp))))
    | backoff => exact .inr (.inl rfl)
  · intro hp
    by_contra harmed
    obtain ⟨hk, hlistens⟩ := h.armed_phase harmed
    obtain hp | hp | ⟨-, hw⟩ := hp
    · simp [hp] at hlistens
    · simp [hp] at hlistens
    · cases hk.symm.trans hw

/-- A byte that meets a unit that is off is lost. -/
theorem Inv.react_rxByte_of_off (h : Inv s) (hrx : s.rx = .off) (b : Byte) : react (.rxByte b) s = s := by
  have hlost : onRx b s = s := by simp only [onRx, hrx]
  rw [h.react_rxByte fun _ => by simp [hlost, hrx], hlost]

end Sys2Proof.Machine

namespace Sys2Proof

open Sys2Proof.Machine

/-- Settles O25: the unit is armed in TX, PAUSE and CAPTURE of a read alone, and off it takes no byte. -/
theorem bytesOutsideAnArmedWindowAreLost : Obligations.BytesOutsideAnArmedWindowAreLost := by
  refine fun s h => ⟨h.rx_eq_off_iff, fun hrx b rest he => ?_⟩
  rw [step_eq_react h.legal he]
  exact congrArg Host.Outcome.next ((h.withEvents rest).react_rxByte_of_off hrx b)

/-- Settles O48: a running command has no response, and the view's fields are the state's. -/
theorem responseReadIsRefusedWithoutAResponse : Obligations.ResponseReadIsRefusedWithoutAResponse := fun _ =>
  ⟨fun h hp => (hostReadRespData_of_no_response (h.response_closed hp)).1, hostReadRespData_of_no_response,
    hostReadRespData_of_response, beq_iff_eq, rfl, rfl, rfl, rfl⟩

/-- Settles O55: the reset state is written out, and without a response the read is refused. -/
theorem resetHasTheSpecsValues : Obligations.ResetHasTheSpecsValues :=
  ⟨rfl, rfl, rfl, rfl, rfl, rfl, rfl, rfl, rfl, rfl, rfl, rfl, rfl, rfl, rfl, (hostReadRespData_of_no_response rfl).1⟩

/-- Settles O56: a Reset's step is its rule alone, and its rule keeps nothing of the command. -/
theorem resetAbandonsTheCommand : Obligations.ResetAbandonsTheCommand := fun _ _ hl he => step_of_event hl he

end Sys2Proof
end

section
/-! The bound on a command's time (70_reset_and_hazards.md R270, R272, R273): the ticks that a running command can still take,
which no event of the line and no turn of the loop adds to, and of which every tick takes one away. -/

namespace Sys2Proof.Machine

variable {s t : State} {ev : Event} {evs : List Event}

/-! ### The ticks left -/

/-- The most ticks the attempt in progress still takes, and in BACKOFF the pause and the next attempt. A frame that is not all
accepted has `P_T_TX - 1` ticks to be in time. -/
def attemptTicksLeft (s : State) : Nat :=
  match s.phase with
  | .idle => 0
  | .tx =>
    if s.txIdx = s.txFrame.length then s.cfg.tPause + s.cfg.tCapture else attemptTickBound s.cfg - s.timer
  | .pause => s.cfg.tPause - s.timer + s.cfg.tCapture
  | .capture => s.cfg.tCapture - s.timer
  | .backoff => s.cfg.tPause - s.timer + attemptTickBound s.cfg

/-- The most ticks the attempts after this one take, each with the pause before it. -/
def retryTicksLeft (s : State) : Nat := (s.limit - s.attempt) * (attemptTickBound s.cfg + s.cfg.tPause)

/-- The most ticks the sub-transaction in progress still takes. -/
def subTicksLeft (s : State) : Nat :=
  match s.kind with
  | .read => attemptTicksLeft s + retryTicksLeft s
  | .write => if s.txIdx = s.txFrame.length then 0 else s.cfg.tTx - s.timer

/-- The most ticks the sub-transactions after this one take (43_write.md R203). -/
def laterTicks (s : State) : Nat :=
  match s.op, s.stage with
  | .writeChecked, .before => s.cfg.tTx + readTickBound s.cfg s.cfg.chkTries
  | .writeChecked, .write => readTickBound s.cfg s.cfg.chkTries
  | _, _ => 0

/-- The most ticks the running command still takes. -/
def ticksLeft (s : State) : Nat := if s.phase = .idle then 0 else subTicksLeft s + laterTicks s

theorem ticksLeft_idle (hp : s.phase = .idle) : ticksLeft s = 0 := if_pos hp

theorem ticksLeft_busy (hp : s.phase ≠ .idle) : ticksLeft s = subTicksLeft s + laterTicks s := if_neg hp

theorem ticksLeft_read (hp : s.phase ≠ .idle) (hk : s.kind = .read) :
    ticksLeft s = attemptTicksLeft s + retryTicksLeft s + laterTicks s := by
  rw [ticksLeft_busy hp, subTicksLeft, hk]

/-- Within a read sub-transaction the attempt in progress decides. -/
theorem ticksLeft_le_of_attempt (hp : s.phase ≠ .idle) (hk : s.kind = .read) (hp' : t.phase ≠ .idle)
    (hk' : t.kind = .read) (hretry : retryTicksLeft t = retryTicksLeft s) (hlater : laterTicks t = laterTicks s) {n : Nat}
    (hle : attemptTicksLeft t + n ≤ attemptTicksLeft s) : ticksLeft t + n ≤ ticksLeft s := by
  rw [ticksLeft_read hp hk, ticksLeft_read hp' hk']
  omega

/-- The first attempt, and each other one with its pause, are all the attempts. -/
theorem readTickBound_eq (c : Config) {n : Nat} (hn : 1 ≤ n) :
    readTickBound c n = attemptTickBound c + (n - 1) * (attemptTickBound c + c.tPause) := by
  obtain ⟨m, rfl⟩ := Nat.exists_eq_add_of_le' hn
  rw [readTickBound, Nat.add_sub_cancel]
  ring

theorem ticksLeft_startRead (a : Reg7) {n : Nat} (hn : 1 ≤ n) (s : State) :
    ticksLeft (startRead a n s) = readTickBound s.cfg n + laterTicks s := by
  rw [readTickBound_eq s.cfg hn]
  rfl

theorem ticksLeft_startWrite (a : Reg7) (d : Word32) (t : State) :
    ticksLeft (startWrite a d t) = t.cfg.tTx + laterTicks t := rfl

/-! ### A turn of the loop adds none -/

/-- The end of a sub-transaction leaves the command the ticks of those after it. -/
theorem ticksLeft_subDone_le (hl : s.cfg.legal = true) (ok : Bool) (v : Word32) :
    ticksLeft (subDone ok v s) ≤ laterTicks s := by
  obtain ⟨-, ⟨hchk, -⟩, -⟩ := Config.bounds_of_legal hl
  obtain ⟨st, d, -, ho⟩ | ⟨hop, hst, -, ho⟩ | ⟨hop, hst, -, ho⟩ := subDone_cases ok v s <;> rw [ho]
  · exact Nat.zero_le _
  · rw [ticksLeft_startWrite]
    simp only [laterTicks, hop, hst, le_refl]
  · rw [ticksLeft_startRead (s := { s with stage := .after }) _ hchk]
    simp only [laterTicks, hop, hst, Nat.add_zero, le_refl]

/-- A failed attempt leaves the attempts after it, or none and the end. -/
theorem ticksLeft_attemptFailed_le (hp : s.phase ≠ .idle) :
    ticksLeft (attemptFailed s) ≤ ticksLeft s := by
  by_cases hn : s.kind = .read ∧ s.attempt < s.limit
  · obtain ⟨hk, hlt⟩ := hn
    rw [attemptFailed_of_attempt_left hk hlt, ticksLeft_read hp hk, ticksLeft_read (s := backOff s) nofun hk]
    have hwait : attemptTicksLeft (backOff s) = s.cfg.tPause + attemptTickBound s.cfg := rfl
    have hnext : retryTicksLeft s = retryTicksLeft (backOff s) + (attemptTickBound s.cfg + s.cfg.tPause) := by
      have hleft : s.limit - s.attempt = s.limit - (s.attempt + 1) + 1 := by omega
      rw [retryTicksLeft, hleft, Nat.add_one_mul]
      rfl
    have hlater : laterTicks (backOff s) = laterTicks s := rfl
    omega
  · rw [attemptFailed_of_last hn, ticksLeft_idle rfl]
    exact Nat.zero_le _

/-- Each phase of an attempt is entered with no more ticks than the one before it left (R148). -/
theorem LoopInv.ticksLeft_settleOnce_le (h : LoopInv s) (hs : Machine.settleOnce s = some t) :
    ticksLeft t ≤ ticksLeft s := by
  have hp : s.phase ≠ .idle := fun hp => by simp [settleOnce_idle hp] at hs
  have hended : laterTicks s ≤ ticksLeft s := ticksLeft_busy hp ▸ Nat.le_add_left _ _
  obtain ⟨htx, hi, rfl⟩ | ⟨-, -, -, rfl⟩ | ⟨hpause, -, rfl⟩ | ⟨-, -, rfl⟩ | ⟨-, -, -, rfl⟩ | ⟨hb, -, rfl⟩ :=
    settleOnce_cases hs
  · unfold txDone
    split
    next hk =>
      refine ticksLeft_le_of_attempt (t := { s with phase := .pause, timer := 0 }) (n := 0) hp hk nofun hk rfl rfl ?_
      simp only [attemptTicksLeft, htx, hi, if_true, Nat.add_zero, Nat.sub_zero, le_refl]
    next => exact (ticksLeft_subDone_le h.legal true 0).trans hended
  · exact ticksLeft_attemptFailed_le hp
  · have hk := h.waits_for_read (.inl hpause)
    refine ticksLeft_le_of_attempt (t := { s with phase := .capture, timer := 0 }) (n := 0) hp hk nofun hk rfl rfl ?_
    simp only [attemptTicksLeft, hpause, Nat.add_zero, Nat.sub_zero, Nat.le_add_left]
  · exact (ticksLeft_subDone_le (s := recordReply s) h.legal true _).trans hended
  · exact ticksLeft_attemptFailed_le hp
  · have hk := h.waits_for_read (.inr (.inr hb))
    refine ticksLeft_le_of_attempt (t := Machine.startAttempt s) (n := 0) hp hk nofun hk rfl rfl ?_
    simp only [attemptTicksLeft, hb]
    exact Nat.le_add_left _ _

theorem LoopInv.ticksLeft_settle_le (h : LoopInv s) : ticksLeft (settle s) ≤ ticksLeft s :=
  (settle_induct (P := fun u => LoopInv u ∧ ticksLeft u ≤ ticksLeft s)
    (fun _ _ ⟨hu, hle⟩ hs => ⟨hu.settleOnce hs, (hu.ticksLeft_settleOnce_le hs).trans hle⟩) ⟨h, le_rfl⟩).2

/-! ### A tick takes one away -/

/-- Only a read waits, so what is written is in TX. -/
theorem Inv.phase_of_write (h : Inv s) (hp : s.phase ≠ .idle) (hk : s.kind = .write) : s.phase = .tx := by
  have hwaits := h.waits_for_read
  cases hph : s.phase <;> simp_all

/-- Below the limit of its phase the timer has a tick left (R159). -/
theorem Inv.ticksLeft_tick_lt (h : Inv s) (hp : s.phase ≠ .idle) :
    ticksLeft { s with timer := s.timer + 1 } < ticksLeft s := by
  obtain ⟨-, -, -, htCapture⟩ := Config.bounds_of_legal h.legal
  have hlimit := h.timer_lt_phaseLimit hp
  obtain hk | hk := kind_cases s
  · refine ticksLeft_le_of_attempt (t := { s with timer := s.timer + 1 }) (n := 1) hp hk hp hk rfl rfl ?_
    cases hph : s.phase with
    | idle => exact absurd hph hp
    | tx =>
      simp only [attemptTicksLeft, attemptTickBound, phaseLimit, hph, (h.tx_unfinished hph).ne, if_false] at hlimit ⊢
      omega
    | pause | capture | backoff =>
      simp only [attemptTicksLeft, phaseLimit, hph] at hlimit ⊢
      omega
  · have htx := h.phase_of_write hp hk
    rw [ticksLeft_busy (by exact hp), ticksLeft_busy hp]
    refine Nat.add_lt_add_right ?_ _
    simp only [subTicksLeft, phaseLimit, hk, htx, (h.tx_unfinished htx).ne, if_false] at hlimit ⊢
    omega

/-- The last byte of a frame in time leaves the pause and the capture of a read, and nothing of a write. -/
theorem Inv.ticksLeft_emit_le (h : Inv s) (hp : s.phase = .tx) (b : Byte) : ticksLeft (emit b s) ≤ ticksLeft s := by
  have hopen := (h.tx_unfinished hp).ne
  have hlimit := h.timer_tx hp
  have hbusy : s.phase ≠ .idle := by simp [hp]
  obtain hk | hk := kind_cases s
  · refine ticksLeft_le_of_attempt (t := emit b s) (n := 0) hbusy hk hbusy hk rfl rfl ?_
    simp only [attemptTicksLeft, attemptTickBound, emit, hp, hopen, if_false]
    split <;> omega
  · rw [ticksLeft_busy (s := emit b s) hbusy, ticksLeft_busy hbusy]
    refine Nat.add_le_add_right ?_ _
    simp only [subTicksLeft, emit, hk, hopen, if_false]
    split <;> omega

theorem Inv.ticksLeft_handle_le (h : Inv s) (hcmd : ∀ w, ev ≠ .cmd w) (hreset : ev ≠ .reset) :
    ticksLeft (handle ev s) ≤ ticksLeft s - tickCount [ev] := by
  cases ev with
  | reset => exact absurd rfl hreset
  | cmd w => exact absurd rfl (hcmd w)
  | rxByte b =>
    obtain ⟨rx, buf, ho⟩ := onRx_eq b s
    rw [handle, ho]
    exact le_rfl
  | txAccept =>
    obtain ⟨-, ho⟩ | ⟨b, hb, ho⟩ := onTxAccept_cases s <;> rw [handle, ho]
    · exact le_rfl
    · exact h.ticksLeft_emit_le ((txByte_eq_some_iff b).1 hb).1 b
  | tick =>
    by_cases hp : s.phase = .idle
    · rw [h.handle_line_of_idle hp hcmd hreset, ticksLeft_idle hp]
      exact Nat.zero_le _
    · rw [handle_tick hp]
      exact Nat.le_sub_one_of_lt (h.ticksLeft_tick_lt hp)

/-- However the ticks fall among the other events of the line, each of them counts. -/
theorem Inv.ticksLeft_deliver_le (h : Inv s) (hevs : LineEvents evs) :
    ticksLeft (deliver evs s) ≤ ticksLeft s - tickCount evs := by
  induction evs generalizing s with
  | nil => exact le_rfl
  | cons ev evs ih =>
    obtain ⟨⟨hreset, hcmd⟩, hrest⟩ := List.forall_mem_cons.1 hevs
    have hreact : ticksLeft (react ev s) ≤ ticksLeft s - tickCount [ev] :=
      ((LoopInv.of_inv h).handle ev).ticksLeft_settle_le.trans (h.ticksLeft_handle_le hcmd hreset)
    have hcount : tickCount (ev :: evs) = tickCount [ev] + tickCount evs := List.count_append (l₁ := [ev])
    have hle := ih (inv_react h ev) hrest
    rw [deliver_cons]
    omega

/-- A command with no tick left is over (R159). -/
theorem Inv.phase_of_ticksLeft_eq_zero (h : Inv s) (h0 : ticksLeft s = 0) : s.phase = .idle := by
  by_contra hp
  have hlt := h.ticksLeft_tick_lt hp
  omega

/-! ### The command's response -/

/-- The command runs, or has ended with a response. -/
structure Responds (s : State) : Prop where
  loop : LoopInv s
  ended : s.phase = .idle → s.respValid = true

theorem subDone_respValid (ok : Bool) (v : Word32) (hidle : (subDone ok v s).phase = .idle) :
    (subDone ok v s).respValid = true := by
  obtain ⟨st, d, -, ho⟩ | ⟨-, -, -, ho⟩ | ⟨-, -, -, ho⟩ := subDone_cases ok v s <;> rw [ho] at hidle ⊢
  · rfl
  · cases hidle
  · cases hidle

theorem Responds.settleOnce (h : Responds s) (hs : settleOnce s = some t) : Responds t := by
  refine ⟨h.loop.settleOnce hs, fun hidle => ?_⟩
  obtain ⟨ok, v, rx, buf, diag, acc, rfl, -⟩ | hon := settleOnce_ends_or_reads_on h.loop hs
  · exact subDone_respValid ok v hidle
  · exact absurd hidle hon.phase

theorem Responds.handle (h : Responds s) (hcmd : ∀ w, ev ≠ .cmd w) (hreset : ev ≠ .reset) : Responds (handle ev s) := by
  have hloop := h.loop.handle ev
  obtain ⟨rx, buf, wire, i, n, ho⟩ := handle_line_eq hcmd hreset s
  rw [ho] at hloop ⊢
  exact ⟨hloop, h.ended⟩

/-! ### The command accepted (R272) -/

/-- A CRC command completes at once; a transport command starts with no response and its sub-transactions' ticks. -/
theorem acceptBody_cmd_starts (hl : s.cfg.legal = true) (i : Instr) :
    ((acceptBody s.cfg (.cmd i) (openCommand s)).phase = .idle →
      (acceptBody s.cfg (.cmd i) (openCommand s)).respValid = true) ∧
    ticksLeft (acceptBody s.cfg (.cmd i) (openCommand s)) ≤ commandTickBound s.cfg i := by
  obtain ⟨⟨hmax, -⟩, ⟨hchk, -⟩, -⟩ := Config.bounds_of_legal hl
  cases i with
  | crcSeed a8 => exact ⟨fun _ => rfl, le_rfl⟩
  | crcUpdate a8 => exact ⟨fun _ => rfl, le_rfl⟩
  | readReg a8 => exact ⟨nofun, (ticksLeft_startRead (regNumber a8) le_rfl _).le⟩
  | readInt a8 => exact ⟨nofun, (ticksLeft_startRead (regNumber a8) hmax _).le⟩
  | readU32 a8 => exact ⟨nofun, (ticksLeft_startRead (regNumber a8) hmax _).le⟩
  | writeReg a8 d32 => exact ⟨nofun, (ticksLeft_startWrite (regNumber a8) d32 _).le⟩
  | writeChecked a8 d32 =>
    refine ⟨nofun, (ticksLeft_startRead s.cfg.ifcntAddr hchk _).le.trans ?_⟩
    simp only [laterTicks, enterStage, latch, openCommand, commandTickBound]
    omega

end Sys2Proof.Machine

namespace Sys2Proof

open Sys2Proof.Machine

/-- Settles O51: the ticks that are left are at most the bound when the command is accepted, and every tick takes one away. -/
theorem commandsFinishWithinTheirTickBound : Obligations.CommandsFinishWithinTheirTickBound := by
  intro s w i evs h hp hd hevs hticks
  have hinv := inv_react h (.cmd w)
  have hstart : react (.cmd w) s = acceptBody s.cfg (.cmd i) (openCommand s) := hd ▸ settle_handle_cmd_idle h.legal w hp
  obtain ⟨hended, hbound⟩ := acceptBody_cmd_starts h.legal i
  rw [after_eq_deliver h.legal, deliver_cons]
  rw [hstart] at hinv ⊢
  have hleft := hinv.ticksLeft_deliver_le hevs
  have hidle := (inv_deliver hinv evs).phase_of_ticksLeft_eq_zero (by omega)
  have hresponds := deliver_induct (fun _ _ hcmd hreset hr => Responds.handle hr hcmd hreset)
    (fun _ _ => Responds.settleOnce) hevs ⟨.of_inv hinv, hended⟩
  exact ⟨_, rfl, hidle, hresponds.ended hidle⟩

end Sys2Proof
end

section
/-! The block without ticks (70_reset_and_hazards.md R270; 93_implementation_defined.md U13): bytes that complete nothing go out and
come in, and every phase stays as it is. -/

namespace Sys2Proof.Machine

variable {s : State} {evs : List Event}

theorem receivedBytes_append (as bs : List Event) : receivedBytes (as ++ bs) = receivedBytes as ++ receivedBytes bs :=
  List.filterMap_append

/-- The RX unit does not see the bytes accepted. -/
theorem onRx_sent (b : Byte) (n : Nat) (s : State) : onRx b (sent n s) = sent n (onRx b s) := by
  have hrx : (sent n s).rx = s.rx := rfl
  have hcfg : (sent n s).cfg = s.cfg := rfl
  unfold onRx
  simp only [hrx, hcfg]
  cases s.rx with
  | off => rfl
  | hunt =>
    by_cases hb : b = s.cfg.sync
    · simp only [hb, if_true]; rfl
    · simp only [hb, if_false]
  | collect => rfl
  | full => rfl

/-- The bytes of its frame that the line accepts among the events, of which only those in TX count (R147). -/
def acceptedIn (evs : List Event) (s : State) : Nat := if s.phase = .tx then evs.count .txAccept else 0

/-- The state in which the block waits for a tick: bytes of its frame are out, and the RX unit has the bytes received. -/
def waiting (evs : List Event) (s : State) : State := sent (acceptedIn evs s) (rxReceive (receivedBytes evs) s)

/-- But for the RX unit it is the state in which bytes of the frame are out. -/
theorem waiting_eq (evs : List Event) (s : State) :
    waiting evs s = { sent (acceptedIn evs s) s with
      rx := (rxReceive (receivedBytes evs) s).rx, rxBuf := (rxReceive (receivedBytes evs) s).rxBuf } := by
  obtain ⟨rx, buf, ho⟩ := rxReceive_eq (receivedBytes evs) s
  rw [waiting, ho]
  rfl

theorem waiting_phase (evs : List Event) (s : State) : (waiting evs s).phase = s.phase := by
  rw [waiting_eq]
  rfl

theorem waiting_place (evs : List Event) (hp : s.phase = .tx) :
    (waiting evs s).txFrame = s.txFrame ∧ (waiting evs s).txIdx = s.txIdx + evs.count .txAccept := by
  rw [waiting_eq, acceptedIn, if_pos hp]
  exact ⟨rfl, rfl⟩

theorem waiting_nil (s : State) : waiting [] s = s := by
  simp [waiting, acceptedIn, sent]

theorem waiting_append_cmd (evs : List Event) (w : CmdWord) (s : State) : waiting (evs ++ [.cmd w]) s = waiting evs s := by
  simp [waiting, acceptedIn, receivedBytes_append]

theorem waiting_append_rxByte (evs : List Event) (b : Byte) (s : State) :
    waiting (evs ++ [.rxByte b]) s = onRx b (waiting evs s) := by
  rw [waiting, waiting, onRx_sent, receivedBytes_append, rxReceive_append]
  simp [acceptedIn]

theorem waiting_append_txAccept (hp : s.phase = .tx) {b : Byte}
    (hb : s.txFrame[s.txIdx + evs.count .txAccept]? = some b) :
    waiting (evs ++ [.txAccept]) s = emit b (waiting evs s) := by
  have hsent (evs : List Event) :
      waiting evs s = sent (evs.count .txAccept) (rxReceive (receivedBytes evs) s) := by
    rw [waiting, acceptedIn, if_pos hp]
  have hframe : (rxReceive (receivedBytes evs) s).txFrame[(rxReceive (receivedBytes evs) s).txIdx +
      evs.count .txAccept]? = some b := by
    obtain ⟨rx, buf, ho⟩ := rxReceive_eq (receivedBytes evs) s
    rw [ho]
    exact hb
  rw [hsent, hsent, emit_sent hframe]
  simp [receivedBytes_append]

theorem waiting_append_txAccept_of_ne_tx (hp : s.phase ≠ .tx) : waiting (evs ++ [.txAccept]) s = waiting evs s := by
  simp [waiting, acceptedIn, receivedBytes_append, hp]

/-- A byte accepted where none is offered does nothing (R147). -/
theorem Inv.react_txAccept_of_ne_tx (h : Inv s) (hp : s.phase ≠ .tx) : react .txAccept s = s := by
  rw [react, handle, onTxAccept_of_not_txValid (by simp [txValid, hp])]
  exact settle_of_quiescent h.settleOnce_eq_none

/-- Without ticks, a frame that is not all accepted and a reply that is not whole leave the block waiting. -/
theorem Inv.deliver_without_ticks (h : Inv s) (hbusy : s.phase ≠ .idle) (hevs : ∀ e ∈ evs, e ≠ .tick ∧ e ≠ .reset)
    (htx : s.phase = .tx → s.txIdx + evs.count .txAccept < s.txFrame.length)
    (hcapture : s.phase = .capture → (rxReceive (receivedBytes evs) s).rx ≠ .full) :
    deliver evs s = waiting evs s := by
  induction evs using List.reverseRecOn with
  | nil => exact (waiting_nil s).symm
  | append_singleton evs ev ih =>
    obtain ⟨hbefore, hev⟩ := List.forall_mem_append.1 hevs
    obtain ⟨htick, hreset⟩ := hev ev List.mem_cons_self
    have hwait : deliver evs s = waiting evs s := by
      refine ih hbefore (fun hp => ?_) fun hp hfull => hcapture hp ?_
      · have hlt := htx hp
        rw [List.count_append] at hlt
        omega
      · rw [receivedBytes_append, rxReceive_append, rxReceive_of_full hfull]
        exact hfull
    have hinv : Inv (waiting evs s) := hwait ▸ inv_deliver h evs
    have hphase := waiting_phase evs s
    rw [deliver_append, hwait, deliver_cons, deliver_nil]
    cases ev with
    | reset => exact absurd rfl hreset
    | tick => exact absurd rfl htick
    | cmd w => exact (hinv.settle_handle_cmd_busy w (by rwa [hphase])).trans (waiting_append_cmd evs w s).symm
    | rxByte b =>
      rw [waiting_append_rxByte]
      refine hinv.react_rxByte fun hp => ?_
      rw [← waiting_append_rxByte, waiting_eq]
      exact hcapture (hphase ▸ hp)
    | txAccept =>
      by_cases hp : s.phase = .tx
      · have hlt := htx hp
        rw [List.count_append, List.count_singleton_self] at hlt
        have hb := List.getElem?_eq_getElem (l := s.txFrame) (i := s.txIdx + evs.count .txAccept) (by omega)
        obtain ⟨hframe, hidx⟩ := waiting_place evs hp
        rw [waiting_append_txAccept hp hb]
        exact hinv.react_txAccept_of_lt (hphase.trans hp) (by rwa [hframe, hidx]) (by rw [hframe, hidx]; omega)
      · rw [waiting_append_txAccept_of_ne_tx hp]
        exact hinv.react_txAccept_of_ne_tx (by rwa [hphase])

end Sys2Proof.Machine

namespace Sys2Proof

open Sys2Proof.Machine

/-- Settles O52: the run ends in the state that waits, which is the one it began in but for the wire and the RX unit. -/
theorem withoutTicksTheBlockHangs : Obligations.WithoutTicksTheBlockHangs := by
  intro s evs h hbusy hevs htx hcapture
  refine ⟨_, after_eq_deliver h.legal evs, ?_⟩
  rw [h.deliver_without_ticks hbusy hevs htx hcapture, waiting_eq]
  refine ⟨rfl, rfl, rfl, h.response_closed hbusy, congrArg (s.wire ++ ·) ?_, rfl, rfl⟩
  rw [acceptedIn]
  split
  · rfl
  · exact List.take_zero

end Sys2Proof
end
